-- ==== Sys2Proof/Word.lean ====
section
/-! DEFINITION. The widths of spec/00_scope.md section 4.1: bytes, words, 32-bit measurement patterns, bus addresses. -/

namespace Sys2Proof

/-- A byte is 8 bits (00_scope.md section 4.1). -/
abbrev Byte := BitVec 8

/-- A word is 16 bits: a data word, a command identifier or a payload (R6, `WORD_BITS`). -/
abbrev Word := BitVec 16

/-- A 32-bit IEEE-754 pattern, carried as bits (R129). -/
abbrev Bits32 := BitVec 32

/-- A device address of the two-wire bus, 7 bits (R30). -/
abbrev BusAddr := BitVec 7

end Sys2Proof
end

