-- ==== Sys2Proof/Config.lean ====
section
/-! DEFINITION. The hardwired parameters of the block (spec/00_scope.md R6) and the types of its open parameters (R7). -/

namespace Sys2Proof.Config

/-- `CRC_POLY`: the generator polynomial's low 8 coefficients (R6, R72). -/
def crcPoly : Byte := 0x31

/-- `CRC_INIT`: the value the checksum starts from, reloaded for every word (R6, R17). -/
def crcInit : Byte := 0xFF

/-- `CRC_WIDTH`: the number of shift steps for one byte (R6, R71). -/
def crcWidth : Nat := 8

/-- `DEV_ADDR`: the fixed 7-bit address of the sensor, handed to the transport unshifted (R6, R31). -/
def devAddr : BusAddr := 0x61

/-- `GROUP_BYTES`: bytes of one checksummed word on the wire (R6, R51). -/
def groupBytes : Nat := 3

/-- `TX_SHORT`: bytes of a frame without payload (R6, R50). -/
def txShort : Nat := 2

/-- `TX_LONG`: bytes of a frame with payload, and the capacity of `TX` (R6, R13, R50). -/
def txLong : Nat := 5

/-- `MIN_WORDS`: the smallest legal word count of a READ (R6, R88). -/
def minWords : Nat := 1

/-- `MAX_WORDS`: the largest legal word count of a READ (R6, R88). -/
def maxWords : Nat := 6

/-- `RX_MAX`: the capacity of `RX`, `MAX_WORDS * GROUP_BYTES` (R6, R14). -/
def rxMax : Nat := 18

/-- `PERIOD_MIN`: the smallest valid measurement interval in seconds (R6, R122). -/
def periodMin : Nat := 2

/-- `PERIOD_MAX`: the largest valid measurement interval in seconds (R6, R122). -/
def periodMax : Nat := 1800

/-- `READY`: the ready word that means "data ready" (R6, R126). -/
def ready : Word := 0x0001

/-- `CRC_POLICY`, what READ does on a checksum mismatch (R7, R90). -/
inductive CrcPolicy where
  /-- the mismatch is logged and the words are returned (the default) -/
  | permissive
  /-- the first mismatch is logged and ends the READ with ChecksumMismatch -/
  | strict
deriving DecidableEq, Repr

/-- `STATE_GUARD`, whether OPEN, SAMPLE and STOP are refused in the wrong driver state (R7, R121). -/
inductive StateGuard where
  /-- refused in the wrong state (the default) -/
  | refuse
  /-- performed in either state -/
  | unchecked
deriving DecidableEq, Repr

/-- `E`, the transport's own error value (R7). DESIGN CHOICE (notes/assumptions/3.md): a label with as
many values as there are naturals; no operation looks inside it. -/
structure TransportError where
  label : Nat
deriving DecidableEq, Repr

end Sys2Proof.Config
end

