-- ==== Sys2Proof/Machine/Crc.lean ====
section
/-! DEFINITION. The Checksum Engine's function (spec/40_checksum.md R71) and the two other forms of it (R73). -/

namespace Sys2Proof.Machine

/-- One shift step of R71: the bit shifted out of bit 7 is dropped, and the polynomial is xored in
when it was 1. -/
def crcShift (c : Byte) : Byte :=
  if c.getLsbD 7 then (c <<< 1) ^^^ Config.crcPoly else c <<< 1

/-- `n` shift steps. -/
def crcShifts : Nat → Byte → Byte
  | 0, c => c
  | n + 1, c => crcShifts n (crcShift c)

/-- One byte of R71's outer loop: xor the byte in, then eight shift steps. -/
def crcByte (c b : Byte) : Byte := crcShifts Config.crcWidth (c ^^^ b)

/-- R71's loop over a byte sequence of any length from a given start value; the block itself runs it
over the two bytes of one word only (R74). -/
def crcFrom (c : Byte) : List Byte → Byte
  | [] => c
  | b :: bs => crcFrom (crcByte c b) bs

/-- `CRC8(b0, b1)`: the checksum of one word, `b0` its high byte (R71). -/
def crc8 (b0 b1 : Byte) : Byte := crcFrom Config.crcInit [b0, b1]

/-- One step of R73's bit-serial form, with the message bit `bit`. -/
def crcSerialBit (c : Byte) (bit : Bool) : Byte :=
  let fb := c.getLsbD 7 ^^ bit
  if fb then (c <<< 1) ^^^ Config.crcPoly else c <<< 1

/-- The bits of a byte, most significant first. -/
def bitsMsbFirst (b : Byte) : List Bool :=
  [b.getLsbD 7, b.getLsbD 6, b.getLsbD 5, b.getLsbD 4, b.getLsbD 3, b.getLsbD 2, b.getLsbD 1, b.getLsbD 0]

/-- R73's bit-serial form of the checksum: one message bit a step, bit 7 of `b0` first. -/
def crc8Serial (b0 b1 : Byte) : Byte :=
  (bitsMsbFirst b0 ++ bitsMsbFirst b1).foldl crcSerialBit Config.crcInit

/-- `T[x]` of R73: eight shift steps applied to `x` with no input. -/
def crcTable (x : Byte) : Byte := crcShifts Config.crcWidth x

/-- R73's table form of the checksum. -/
def crc8Table (b0 b1 : Byte) : Byte :=
  crcTable (crcTable (Config.crcInit ^^^ b0) ^^^ b1)

end Sys2Proof.Machine
end

