-- ==== Sys2Proof/Syntax.lean ====
section
/-! DEFINITION. What a host can ask of the block: the ten commands of the Command Table, the nineteen rows of
spec/opcode_table.json, and the encoded form in which a request reaches the block. -/

namespace Sys2Proof

/-- The Command type: "a closed, tagged variant" of ten members (R100). -/
inductive Command where
  /-- StartContinuous: no operand; its payload is a constant of the table (R104). -/
  | startContinuous
  /-- StopContinuous (R105). -/
  | stopContinuous
  /-- SetContinuousInterval(u16 seconds) (R106). -/
  | setContinuousInterval (seconds : Word)
  /-- GetDataReady (R107). -/
  | getDataReady
  /-- ReadMeasurement (R108). -/
  | readMeasurement
  /-- SetAutomaticSelfCalibration(bool) (R109). -/
  | setAutomaticSelfCalibration (enabled : Bool)
  /-- SetForcedRecalibration(u16 ppm) (R110). -/
  | setForcedRecalibration (ppm : Word)
  /-- SetTemperatureOffset(u16, units of 0.01 °C) (R111). -/
  | setTemperatureOffset (centidegrees : Word)
  /-- SetAltitude(u16 meters above sea level) (R112). -/
  | setAltitude (meters : Word)
  /-- SoftReset (R113). -/
  | softReset
deriving DecidableEq, Repr

/-- One constructor for each row of spec/opcode_table.json: the ten wire commands, then the nine host
operations. A wire command asked for by its frame means EXEC of that command (R104 to R113;
notes/assumptions/1.md). -/
inductive Instr where
  /-- START_CONT (R104). -/
  | startCont
  /-- STOP_CONT (R105). -/
  | stopCont
  /-- SET_INTERVAL s (R106). -/
  | setInterval (s : Word)
  /-- GET_READY (R107). -/
  | getReady
  /-- READ_MEAS (R108). -/
  | readMeas
  /-- SET_ASC b (R109). -/
  | setAsc (b : Bool)
  /-- SET_FRC p (R110). -/
  | setFrc (p : Word)
  /-- SET_TOFFSET t (R111). -/
  | setToffset (t : Word)
  /-- SET_ALT m (R112). -/
  | setAlt (m : Word)
  /-- SOFT_RESET (R113). -/
  | softReset
  /-- CRC8 b0, b1 (R71). -/
  | crc8 (b0 b1 : Byte)
  /-- ADDCHK w (R75). -/
  | addChk (w : Word)
  /-- VERCHK b0, b1, c (R76). -/
  | verChk (b0 b1 c : Byte)
  /-- SEND id, or SEND id, d (R86). -/
  | send (id : Word) (data : Option Word)
  /-- READ n; n is a natural number, legal 1..=6 (R88). -/
  | read (n : Nat)
  /-- EXEC cmd (R114). -/
  | execCmd (cmd : Command)
  /-- OPEN period; the period is a natural number, valid 2..=1800 (R122, R123). -/
  | openDriver (period : Nat)
  /-- SAMPLE (R125). -/
  | sampleDriver
  /-- STOP (R130). -/
  | stopDriver
deriving DecidableEq, Repr

/-- The encoding format of a request, the opcode table's "format" column. -/
inductive Format where
  /-- S: the 2-byte frame of a command without payload (R50). -/
  | short
  /-- L: the 5-byte frame of a command with payload (R50). -/
  | long
  /-- HOST: a select code OPSEL (R58) followed by the operation's operands. -/
  | host
deriving DecidableEq, Repr

/-- An encoded request: its format and its bytes, first byte first. The layout of a HOST request's
operands is the model's (DESIGN CHOICE, notes/assumptions/1.md). -/
structure Request where
  format : Format
  bytes : List Byte
deriving DecidableEq, Repr

/-- Why the decoder reads no instruction from a request. -/
inductive Reject where
  /-- a HOST request without a select code -/
  | emptyRequest
  /-- a first byte above 15: not a 4-bit select code -/
  | notASelect (b : Byte)
  /-- a select code 9 to 15, which "select nothing and are refused" (R58) -/
  | reservedSelect (b : Byte)
  /-- the operand bytes are too few or too many for the select code -/
  | operandShape (b : Byte)
  /-- a natural number operand with a leading zero byte -/
  | leadingZero
  /-- an EXEC whose CMDSEL is not 0 to 9 (R58) -/
  | reservedCommand (b : Byte)
  /-- a boolean operand that is neither 0 nor 1 -/
  | notABool (b : Byte)
  /-- a frame that is not 2 (format S) or 5 (format L) bytes long (R50) -/
  | frameLength
  /-- an identifier that the Command Table does not have in this format (R53) -/
  | unknownIdentifier (id : Word)
  /-- a START_CONT whose last byte is not 0x81: its whole frame is fixed (R61) -/
  | badChecksum (computed received : Byte)
  /-- a payload its command cannot have: START_CONT's other than 0, SET_ASC's other than 0 or 1 (R54, R56) -/
  | badPayload (id d : Word)
deriving DecidableEq, Repr

/-- A Sample: three 32-bit patterns (R128, R129). -/
structure Sample where
  co2 : Bits32
  temperature : Bits32
  humidity : Bits32
deriving DecidableEq, Repr

end Sys2Proof
end

