-- ==== Sys2Proof/Machine/Operands.lean ====
section
/-! DEFINITION. Operand forms: byte order (spec/20_memory.md R37), frames and groups (30_encoding.md R50, R51), natural
number operands of a host request, and the assembly of replies (R55). -/

namespace Sys2Proof.Machine

/-- `hi8(w) = w[15:8]`. -/
def hi8 (w : Word) : Byte := w.extractLsb' 8 8

/-- `lo8(w) = w[7:0]`. -/
def lo8 (w : Word) : Byte := w.extractLsb' 0 8

/-- `be16(b0, b1)`: the word whose high byte is `b0` (00_scope.md section 4.1). -/
def be16 (b0 b1 : Byte) : Word := (b0.zeroExtend 16 <<< 8) ||| b1.zeroExtend 16

/-- `be32(w0, w1)`: the 32-bit value whose high half is `w0` (00_scope.md section 4.1). -/
def be32 (w0 w1 : Word) : Bits32 := (w0.zeroExtend 32 <<< 16) ||| w1.zeroExtend 32

/-- A word in wire order: high byte first (R37). -/
def wordBytes (w : Word) : List Byte := [hi8 w, lo8 w]

/-- The three bytes of one checksummed word, format G and bytes 2..4 of format L (R50, R51). -/
def groupOf (w : Word) : List Byte := [hi8 w, lo8 w, crc8 (hi8 w) (lo8 w)]

/-- The outgoing frame of `SEND`: format S without data, format L with (R50, R57). -/
def frameOf (id : Word) : Option Word → List Byte
  | none => wordBytes id
  | some d => wordBytes id ++ groupOf d

/-- Big-endian base-256 digits of `n`, at least one, for `n < 256 ^ fuel`. -/
def natDigits : Nat → Nat → List Byte
  | 0, _ => []
  | fuel + 1, n =>
    if n < 256 then [BitVec.ofNat 8 n] else natDigits fuel (n / 256) ++ [BitVec.ofNat 8 (n % 256)]

/-- A natural number operand as bytes: big-endian, no leading zero byte but for 0 itself
(DESIGN CHOICE, notes/assumptions/1.md). -/
def natBytes (n : Nat) : List Byte := natDigits (n.log2 / 8 + 1) n

/-- The natural number a big-endian byte sequence stands for. -/
def natOfBytes (bs : List Byte) : Nat := bs.foldl (fun acc b => acc * 256 + b.toNat) 0

/-- The low `k` bytes of `w`, most significant first: `w` laid out as one big-endian word of `k` bytes. -/
def beBytes : Nat → Nat → List Byte
  | 0, _ => []
  | k + 1, w => BitVec.ofNat 8 (w / 256 ^ k) :: beBytes k w

/-- The low 16 bits of a period (R122: `period[15:0]`). -/
def lowWord (n : Nat) : Word := BitVec.ofNat 16 n

/-- `payload` of a boolean: true is `0x0001`, false is `0x0000` (R54, D8). -/
def boolWord (b : Bool) : Word := if b then 0x0001 else 0x0000

/-- Sample decoding (R128): the three values in document order, each high half first; `none` unless
there are exactly six words. -/
def sampleOf : List Word → Option Sample
  | [m0, m1, m2, m3, m4, m5] => some ⟨be32 m0 m1, be32 m2 m3, be32 m4 m5⟩
  | _ => none

end Sys2Proof.Machine
end

