-- ==== Sys2Proof/Machine/CommandTable.lean ====
section
/-! DEFINITION. The Command Table (spec/42_commands.md): the three total lookups of R100, and the select code of R58. -/

namespace Sys2Proof.Machine

/-- `commandId(cmd)` (R103). -/
def commandId : Command → Word
  | .startContinuous => 0x0010
  | .stopContinuous => 0x0104
  | .setContinuousInterval _ => 0x4600
  | .getDataReady => 0x0202
  | .readMeasurement => 0x0300
  | .setAutomaticSelfCalibration _ => 0x5306
  | .setForcedRecalibration _ => 0x5204
  | .setTemperatureOffset _ => 0x5403
  | .setAltitude _ => 0x5102
  | .softReset => 0xD304

/-- `payload(cmd)` (R101). -/
def payload : Command → Option Word
  | .startContinuous => some 0x0000
  | .stopContinuous => none
  | .setContinuousInterval s => some s
  | .getDataReady => none
  | .readMeasurement => none
  | .setAutomaticSelfCalibration b => some (boolWord b)
  | .setForcedRecalibration p => some p
  | .setTemperatureOffset t => some t
  | .setAltitude m => some m
  | .softReset => none

/-- `expectedWords(cmd)` (R102). -/
def expectedWords : Command → Nat
  | .startContinuous => 0
  | .stopContinuous => 0
  | .setContinuousInterval _ => 0
  | .getDataReady => 1
  | .readMeasurement => 6
  | .setAutomaticSelfCalibration _ => 0
  | .setForcedRecalibration _ => 0
  | .setTemperatureOffset _ => 0
  | .setAltitude _ => 0
  | .softReset => 0

/-- `CMDSEL`: the position of the variant in the Command's list (R58). -/
def commandSelect : Command → Byte
  | .startContinuous => 0
  | .stopContinuous => 1
  | .setContinuousInterval _ => 2
  | .getDataReady => 3
  | .readMeasurement => 4
  | .setAutomaticSelfCalibration _ => 5
  | .setForcedRecalibration _ => 6
  | .setTemperatureOffset _ => 7
  | .setAltitude _ => 8
  | .softReset => 9

/-- The variant's own operand as bytes, which goes with `CMDSEL` (R58; layout: notes/assumptions/1.md). -/
def commandOperand : Command → List Byte
  | .startContinuous => []
  | .stopContinuous => []
  | .setContinuousInterval s => wordBytes s
  | .getDataReady => []
  | .readMeasurement => []
  | .setAutomaticSelfCalibration b => [if b then 1 else 0]
  | .setForcedRecalibration p => wordBytes p
  | .setTemperatureOffset t => wordBytes t
  | .setAltitude m => wordBytes m
  | .softReset => []

end Sys2Proof.Machine
end

