-- ==== Sys2Proof/WellFormed.lean ====
section
/-! DEFINITION. Well-formedness: which instructions have their operands in the range the opcode table calls legal, and
which encoded requests have the shape of their format. -/

namespace Sys2Proof

/-- The operand is in the range the opcode table calls legal: READ's count in 1..=6 (R88), OPEN's
period in 2..=1800 (R122). Every other operand is legal at every value of its type. A request outside
the range is still decoded and executed: it ends as R88 and R122 say. -/
def Instr.wf : Instr → Bool
  | .startCont | .stopCont | .setInterval _ | .getReady | .readMeas | .setAsc _ | .setFrc _
  | .setToffset _ | .setAlt _ | .softReset => true
  | .crc8 _ _ | .addChk _ | .verChk _ _ _ | .send _ _ | .execCmd _ => true
  | .read n => decide (Config.minWords ≤ n ∧ n ≤ Config.maxWords)
  | .openDriver period => decide (Config.periodMin ≤ period ∧ period ≤ Config.periodMax)
  | .sampleDriver | .stopDriver => true

/-- How many operand bytes follow the select code `sel` in a HOST request with `n` operand bytes
(notes/assumptions/1.md): whether `n` is one of the lengths the layout has. -/
def operandBytesFit (sel : Byte) (n : Nat) : Bool :=
  if sel = 0 ∨ sel = 1 then n == 2
  else if sel = 2 then n == 3
  else if sel = 3 then n == 2 || n == 4
  else if sel = 4 ∨ sel = 6 then 1 ≤ n
  else if sel = 5 then 1 ≤ n && n ≤ 3
  else if sel = 7 ∨ sel = 8 then n == 0
  else false

/-- The request has the length of its format: 2 bytes for S, 5 for L (R50), a select code 0 to 8 and
its operands for HOST (R58). -/
def Request.wf (r : Request) : Bool :=
  match r.format, r.bytes with
  | .short, bs => bs.length == Config.txShort
  | .long, bs => bs.length == Config.txLong
  | .host, [] => false
  | .host, sel :: ops => operandBytesFit sel ops.length

end Sys2Proof
end

