-- ==== Sys2Proof/Decode.lean ====
section
/-! DEFINITION. Decoding a request into an instruction, total and rejecting by name, and after it the encoder. The
frames are spec/30_encoding.md R50, R53, R61; the select codes are R58. -/

namespace Sys2Proof

open Sys2Proof.Machine

/-- A frame without payload: the four identifiers of format S (R53, R61). -/
def decodeShort (id : Word) : Except Reject Instr :=
  if id = 0x0104 then .ok .stopCont
  else if id = 0x0202 then .ok .getReady
  else if id = 0x0300 then .ok .readMeas
  else if id = 0xD304 then .ok .softReset
  else .error (.unknownIdentifier id)

/-- A frame with payload `d` and last byte `c`: the six identifiers of format L (R53, R61). START_CONT's frame
is fixed to its last bit; in the five others the opcode table's mask leaves `c` out, since the block computes
that byte itself when it sends the frame, so `c` is not examined (notes/assumptions/1.md). -/
def decodeLong (id d : Word) (c : Byte) : Except Reject Instr :=
  if id = 0x0010 then
    (if d = 0 then (if c = 0x81 then .ok .startCont else .error (.badChecksum 0x81 c))
     else .error (.badPayload id d))
  else if id = 0x4600 then .ok (.setInterval d)
  else if id = 0x5102 then .ok (.setAlt d)
  else if id = 0x5204 then .ok (.setFrc d)
  else if id = 0x5306 then
    (if d = 0 then .ok (.setAsc false) else if d = 1 then .ok (.setAsc true) else .error (.badPayload id d))
  else if id = 0x5403 then .ok (.setToffset d)
  else .error (.unknownIdentifier id)

/-- A frame by its bytes: identifier and payload big-endian (R37, R50). -/
def decodeFrame : Format → List Byte → Except Reject Instr
  | .short, [h, l] => decodeShort (be16 h l)
  | .long, [h, l, dh, dl, c] => decodeLong (be16 h l) (be16 dh dl) c
  | _, _ => .error .frameLength

/-- A natural number operand: big-endian, no leading zero byte but for 0 itself. -/
def decodeNat (sel : Byte) : List Byte → Except Reject Nat
  | [] => .error (.operandShape sel)
  | [b] => .ok b.toNat
  | b :: b' :: bs => if b = 0 then .error .leadingZero else .ok (natOfBytes (b :: b' :: bs))

/-- An operation without operands. -/
def decodeNone (sel : Byte) (i : Instr) : List Byte → Except Reject Instr
  | [] => .ok i
  | _ => .error (.operandShape sel)

/-- A command without operand in an EXEC. -/
def decodeBare (sel : Byte) (cmd : Command) : List Byte → Except Reject Command
  | [] => .ok cmd
  | _ => .error (.operandShape sel)

/-- A command with a u16 operand in an EXEC, high byte first. -/
def decodeU16 (sel : Byte) (cmd : Word → Command) : List Byte → Except Reject Command
  | [h, l] => .ok (cmd (be16 h l))
  | _ => .error (.operandShape sel)

/-- A command with a boolean operand in an EXEC: 0 is false, 1 is true (R54). -/
def decodeBool (sel : Byte) (cmd : Bool → Command) : List Byte → Except Reject Command
  | [b] => if b = 0 then .ok (cmd false) else if b = 1 then .ok (cmd true) else .error (.notABool b)
  | _ => .error (.operandShape sel)

/-- EXEC's command: `CMDSEL`, then the variant's own operand (R58). -/
def decodeCommand (sel : Byte) : List Byte → Except Reject Command
  | [] => .error (.operandShape sel)
  | cmd :: ops =>
    if cmd = 0 then decodeBare sel .startContinuous ops
    else if cmd = 1 then decodeBare sel .stopContinuous ops
    else if cmd = 2 then decodeU16 sel .setContinuousInterval ops
    else if cmd = 3 then decodeBare sel .getDataReady ops
    else if cmd = 4 then decodeBare sel .readMeasurement ops
    else if cmd = 5 then decodeBool sel .setAutomaticSelfCalibration ops
    else if cmd = 6 then decodeU16 sel .setForcedRecalibration ops
    else if cmd = 7 then decodeU16 sel .setTemperatureOffset ops
    else if cmd = 8 then decodeU16 sel .setAltitude ops
    else if cmd = 9 then decodeBare sel .softReset ops
    else .error (.reservedCommand cmd)

/-- The two byte operands of CRC8. -/
def decodeCrc8 (sel : Byte) : List Byte → Except Reject Instr
  | [b0, b1] => .ok (.crc8 b0 b1)
  | _ => .error (.operandShape sel)

/-- The word operand of ADDCHK. -/
def decodeAddChk (sel : Byte) : List Byte → Except Reject Instr
  | [h, l] => .ok (.addChk (be16 h l))
  | _ => .error (.operandShape sel)

/-- The three byte operands of VERCHK. -/
def decodeVerChk (sel : Byte) : List Byte → Except Reject Instr
  | [b0, b1, c] => .ok (.verChk b0 b1 c)
  | _ => .error (.operandShape sel)

/-- SEND's identifier, and its data word when there is one. -/
def decodeSend (sel : Byte) : List Byte → Except Reject Instr
  | [h, l] => .ok (.send (be16 h l) none)
  | [h, l, dh, dl] => .ok (.send (be16 h l) (some (be16 dh dl)))
  | _ => .error (.operandShape sel)

/-- A host request: `OPSEL` in the first byte, then the operation's operands (R58). -/
def decodeHost : List Byte → Except Reject Instr
  | [] => .error .emptyRequest
  | sel :: ops =>
    if sel = 0 then decodeCrc8 sel ops
    else if sel = 1 then decodeAddChk sel ops
    else if sel = 2 then decodeVerChk sel ops
    else if sel = 3 then decodeSend sel ops
    else if sel = 4 then (decodeNat sel ops).map .read
    else if sel = 5 then (decodeCommand sel ops).map .execCmd
    else if sel = 6 then (decodeNat sel ops).map .openDriver
    else if sel = 7 then decodeNone sel .sampleDriver ops
    else if sel = 8 then decodeNone sel .stopDriver ops
    else if sel.toNat ≤ 15 then .error (.reservedSelect sel)
    else .error (.notASelect sel)

/-- The instruction a request stands for, or why it stands for none. -/
def decode (r : Request) : Except Reject Instr :=
  match r.format with
  | .host => decodeHost r.bytes
  | .short => decodeFrame .short r.bytes
  | .long => decodeFrame .long r.bytes

/-- The request that carries a command as its own frame (R61). -/
def frameRequest (cmd : Command) : Request :=
  { format := if (payload cmd).isSome then .long else .short
    bytes := frameOf (commandId cmd) (payload cmd) }

/-- A host request with select code `sel` and operand bytes `ops` (R58). -/
def hostRequest (sel : Byte) (ops : List Byte) : Request := { format := .host, bytes := sel :: ops }

/-- The encoded request of an instruction. -/
def encode : Instr → Request
  | .startCont => frameRequest .startContinuous
  | .stopCont => frameRequest .stopContinuous
  | .setInterval s => frameRequest (.setContinuousInterval s)
  | .getReady => frameRequest .getDataReady
  | .readMeas => frameRequest .readMeasurement
  | .setAsc b => frameRequest (.setAutomaticSelfCalibration b)
  | .setFrc p => frameRequest (.setForcedRecalibration p)
  | .setToffset t => frameRequest (.setTemperatureOffset t)
  | .setAlt m => frameRequest (.setAltitude m)
  | .softReset => frameRequest .softReset
  | .crc8 b0 b1 => hostRequest 0 [b0, b1]
  | .addChk w => hostRequest 1 (wordBytes w)
  | .verChk b0 b1 c => hostRequest 2 [b0, b1, c]
  | .send id none => hostRequest 3 (wordBytes id)
  | .send id (some d) => hostRequest 3 (wordBytes id ++ wordBytes d)
  | .read n => hostRequest 4 (natBytes n)
  | .execCmd cmd => hostRequest 5 (commandSelect cmd :: commandOperand cmd)
  | .openDriver period => hostRequest 6 (natBytes period)
  | .sampleDriver => hostRequest 7 []
  | .stopDriver => hostRequest 8 []

/-- The request with the last byte of a format L frame replaced by the checksum of its data word, the byte that
frame has on the bus (R50). -/
def Request.sealed (r : Request) : Request :=
  match r.format, r.bytes with
  | .long, [h, l, dh, dl, _] => { r with bytes := [h, l, dh, dl, crc8 dh dl] }
  | _, _ => r

/-- The least number of operand bytes that follow the select code `sel`. -/
def leastOperandBytes (sel : Nat) : Nat :=
  match sel with
  | 0 | 1 | 3 => 2
  | 2 => 3
  | 4 | 5 | 6 => 1
  | _ => 0

/-- The request whose bits are `w`, numbered as spec/opcode_table.json numbers them. A frame row (16 or
40 bits) is one number whose most significant byte is sent first (R50). A host row is its select code;
the table gives its operands no bits, so they are zero bytes, as few as the operation takes. -/
def tableRequest (nbits w : Nat) : Request :=
  if nbits ≤ 8 then hostRequest (BitVec.ofNat 8 w) (List.replicate (leastOperandBytes (w % 256)) 0)
  else if nbits = 16 then { format := .short, bytes := beBytes 2 w }
  else { format := .long, bytes := beBytes (nbits / 8) w }

/-- The instruction the decoder reads from an instruction whose bits are `w`. -/
def decodeTableWord (nbits w : Nat) : Option Instr :=
  match decode (tableRequest nbits w) with
  | .ok i => some i
  | .error _ => none

/-- The mnemonic of an instruction, as spec/opcode_table.json spells it. -/
def Instr.mnemonic : Instr → String
  | .startCont => "START_CONT"
  | .stopCont => "STOP_CONT"
  | .setInterval _ => "SET_INTERVAL"
  | .getReady => "GET_READY"
  | .readMeas => "READ_MEAS"
  | .setAsc _ => "SET_ASC"
  | .setFrc _ => "SET_FRC"
  | .setToffset _ => "SET_TOFFSET"
  | .setAlt _ => "SET_ALT"
  | .softReset => "SOFT_RESET"
  | .crc8 _ _ => "CRC8"
  | .addChk _ => "ADDCHK"
  | .verChk _ _ _ => "VERCHK"
  | .send _ _ => "SEND"
  | .read _ => "READ"
  | .execCmd _ => "EXEC"
  | .openDriver _ => "OPEN"
  | .sampleDriver => "SAMPLE"
  | .stopDriver => "STOP"

/-- The text of a command with its operand in the spelling of R60: the mnemonic of R53, a comma where
it has an operand, the operand in decimal or as a boolean. -/
def Command.asm : Command → String
  | .startContinuous => "START_CONT"
  | .stopContinuous => "STOP_CONT"
  | .setContinuousInterval s => "SET_INTERVAL, " ++ Nat.repr s.toNat
  | .getDataReady => "GET_READY"
  | .readMeasurement => "READ_MEAS"
  | .setAutomaticSelfCalibration b => "SET_ASC, " ++ (if b then "true" else "false")
  | .setForcedRecalibration p => "SET_FRC, " ++ Nat.repr p.toNat
  | .setTemperatureOffset t => "SET_TOFFSET, " ++ Nat.repr t.toNat
  | .setAltitude m => "SET_ALT, " ++ Nat.repr m.toNat
  | .softReset => "SOFT_RESET"

/-- One line of a test program (R60): a host operation, its operands separated by commas, numbers in
decimal. A wire command asked for by its frame is written as the EXEC it means. -/
def Instr.asm : Instr → String
  | .startCont => "EXEC " ++ Command.asm .startContinuous
  | .stopCont => "EXEC " ++ Command.asm .stopContinuous
  | .setInterval s => "EXEC " ++ Command.asm (.setContinuousInterval s)
  | .getReady => "EXEC " ++ Command.asm .getDataReady
  | .readMeas => "EXEC " ++ Command.asm .readMeasurement
  | .setAsc b => "EXEC " ++ Command.asm (.setAutomaticSelfCalibration b)
  | .setFrc p => "EXEC " ++ Command.asm (.setForcedRecalibration p)
  | .setToffset t => "EXEC " ++ Command.asm (.setTemperatureOffset t)
  | .setAlt m => "EXEC " ++ Command.asm (.setAltitude m)
  | .softReset => "EXEC " ++ Command.asm .softReset
  | .crc8 b0 b1 => "CRC8 " ++ Nat.repr b0.toNat ++ ", " ++ Nat.repr b1.toNat
  | .addChk w => "ADDCHK " ++ Nat.repr w.toNat
  | .verChk b0 b1 c =>
    "VERCHK " ++ Nat.repr b0.toNat ++ ", " ++ Nat.repr b1.toNat ++ ", " ++ Nat.repr c.toNat
  | .send id none => "SEND " ++ Nat.repr id.toNat
  | .send id (some d) => "SEND " ++ Nat.repr id.toNat ++ ", " ++ Nat.repr d.toNat
  | .read n => "READ " ++ Nat.repr n
  | .execCmd cmd => "EXEC " ++ cmd.asm
  | .openDriver period => "OPEN " ++ Nat.repr period
  | .sampleDriver => "SAMPLE"
  | .stopDriver => "STOP"

end Sys2Proof
end

