-- ==== Sys2Proof/Machine/State.lean ====
section
/-! DEFINITION. The state of the block (spec/10_state.md R10) as plain data, the outcomes an operation returns
(60_exceptions.md R140), the reasons a step can stop, and the state after reset (R25). -/

namespace Sys2Proof.Machine

open Sys2Proof.Config (TransportError CrcPolicy StateGuard)

/-- One entry of the diagnostic log: the two values of a mismatch (R19). -/
structure DiagEntry where
  computed : Byte
  received : Byte
deriving DecidableEq, Repr

/-- The result of a bus event: what the transport answered, or nothing yet (R20). `α` is what an `ok`
answer carries: nothing for a write, the bytes for a read. -/
inductive BusResult (α : Type) where
  | ok (a : α)
  | fail (e : TransportError)
  | pending
deriving DecidableEq, Repr

/-- One event of the bus history (R20). -/
inductive BusEvent where
  | write (addr : BusAddr) (bytes : List Byte) (result : BusResult Unit)
  | read (addr : BusAddr) (n : Nat) (result : BusResult (List Byte))
deriving DecidableEq, Repr

/-- What the transport answers to one bus primitive (R35). -/
inductive Answer (α : Type) where
  | ok (a : α)
  | fail (e : TransportError)
deriving DecidableEq, Repr

/-- The bytes an `ok` answer would put into a read's buffer of up to 18 bytes; a read of `n` bytes gets
the first `n`, so every answer fits the primitive it meets (notes/assumptions/2.md). -/
abbrev Delivery := Vector Byte 18

/-- The reason of an InvalidConfiguration: there is one (R144). -/
inductive ConfigReason where
  | periodOutOfRange (period : Nat)
deriving DecidableEq, Repr

/-- The Error union: "exactly these five members" (R141). -/
inductive Error where
  /-- a bus write failed; the transport's own error value, unmodified (R142) -/
  | busWriteFailed (e : TransportError)
  /-- a bus read failed; the transport's own error value, unmodified (R143) -/
  | busReadFailed (e : TransportError)
  /-- a group's checksum is not that of its word (R146) -/
  | checksumMismatch (computed received : Byte)
  /-- OPEN was given a period outside 2..=1800 (R144) -/
  | invalidConfiguration (reason : ConfigReason)
  /-- SAMPLE read a ready word other than 0x0001 (R145) -/
  | notReady
deriving DecidableEq, Repr

/-- What an operation returns with `Ok` (R58's "result on Ok"). -/
inductive Value where
  /-- nothing (SEND, EXEC of a command without reply, OPEN, STOP) -/
  | unit
  /-- a byte (CRC8) -/
  | byte (b : Byte)
  /-- three bytes (ADDCHK) -/
  | group (b0 b1 crc : Byte)
  /-- a word (VERCHK) -/
  | word (w : Word)
  /-- the reply words (READ, EXEC of a command with a reply) -/
  | words (ws : List Word)
  /-- the three 32-bit values (SAMPLE) -/
  | sample (x : Sample)
deriving DecidableEq, Repr

/-- The outcome returned to the host with an operation that ended: `Ok(value)` or `Err(error)` (R140).
PreconditionViolation and refused are the model's refusals; an operation that never ends has none. -/
inductive Returned where
  | ok (v : Value)
  | err (x : Error)
deriving DecidableEq, Repr

/-- What the host does next: issue a request, or assert reset (R170, R176). -/
inductive HostEvent where
  | request (r : Request)
  | reset
deriving DecidableEq, Repr

/-- Why the machine stops with a fault. -/
inductive Fault where
  /-- Raised by the accessors of `TX`, `RX` and `W` when a cell is read that the same operation has not
  written: "a fault of the model, not a read of zero" (R26). No operation does so. Safe. -/
  | unwrittenScratch
deriving DecidableEq, Repr

/-- Why a request is given no meaning. -/
inductive Refusal where
  /-- Raised by exec's arm of an instruction that has no meaning yet; there is none. Safe. -/
  | notModelled (mnemonic : String)
  /-- Raised by READ with a word count outside 1..=6: the outcome `abort PreconditionViolation`, which
  "a model treats as a refusal of the request" (R91, R147). Safe: nothing is claimed of what follows. -/
  | preconditionViolation
  /-- Raised by OPEN with CONT = 1, SAMPLE or STOP with CONT = 0, under STATE_GUARD = refuse (R121). Safe. -/
  | wrongDriverState
  /-- Raised by every operation requested while another is in progress (R184). Safe. -/
  | requestWhileBusy
  /-- Raised by a reset asserted while an operation is in progress (R172). Safe. -/
  | resetWhileBusy
  /-- Raised by step on a request the decoder reads no operation from; a select code 9 to 15 among them
  (R58, R148). Safe. -/
  | undecodable (why : Reject)
deriving DecidableEq, Repr

/-- The state. The first group is the block's own (R10, "and nothing else"), with `busy`, which the
block's blocking on a silent transport implies (R36). The second is R7's open parameters, which no step
writes. The third is what stands outside the block: what the transport will answer, what the host will
issue, and what has been returned to it. -/
structure State where
  /-- `CONT`, `continuous_enabled`: true in the driver state Continuous (R15, R16). -/
  cont : Bool
  /-- `TX[0..]`: the cells of the transmit buffer written in the operation in progress (R13). -/
  tx : List Byte
  /-- `TXLEN` (R13). -/
  txLen : Nat
  /-- `RX[0..]`: the cells of the receive buffer written in the operation in progress (R14). -/
  rx : List Byte
  /-- `RXLEN` (R14). -/
  rxLen : Nat
  /-- `W[0..]`: the result words written by the READ in progress (R21). -/
  w : List Word
  /-- `WLEN` (R21). -/
  wLen : Nat
  /-- `DIAG`, oldest entry first (R19). -/
  diag : List DiagEntry
  /-- `HIST`, oldest event first (R20). -/
  hist : List BusEvent
  /-- An operation is in progress whose bus primitive has not answered (R36, R154, R163). -/
  busy : Bool
  /-- `CRC_POLICY` (R7, R90). -/
  crcPolicy : CrcPolicy
  /-- `STATE_GUARD` (R7, R121). -/
  stateGuard : StateGuard
  /-- The answers the transport is going to give, one for each bus primitive; past the last one it
  never answers (R35; notes/assumptions/2.md). -/
  transport : List (Answer Delivery)
  /-- What the host is going to issue, in order (R176; notes/assumptions/1.md). -/
  inbox : List HostEvent
  /-- The outcomes returned to the host, oldest first (R140, R176; notes/assumptions/7.md). -/
  results : List Returned
deriving DecidableEq, Repr

/-- The block right after reset (R25, R170): Stopped, both records empty, no cell of a buffer holding a
value, idle; the open parameters at their defaults (R7); nothing supplied from outside
(notes/assumptions/2.md, 4.md, 6.md, 7.md). -/
def State.reset : State where
  cont := false
  tx := []
  txLen := 0
  rx := []
  rxLen := 0
  w := []
  wLen := 0
  diag := []
  hist := []
  busy := false
  crcPolicy := .permissive
  stateGuard := .refuse
  transport := []
  inbox := []
  results := []

end Sys2Proof.Machine
end

