-- ==== Sys2Proof/Machine/Flags.lean ====
section
/-! DEFINITION. The one architectural flag, CONT, and the guard that reads it (spec/43_driver.md R121); the outcome
codes of 30_encoding.md R59; the ready test (R126). There are no condition codes (R22). -/

namespace Sys2Proof.Machine

open Sys2Proof.Config (StateGuard)

/-- Writes `CONT` (R16: "mutated only by `open`/`stop`"). -/
def State.setCont (s : State) (b : Bool) : State := { s with cont := b }

/-- The state guard: whether an operation that needs `CONT = needs` is refused (R121). Under
`unchecked` no operation reads `CONT`. -/
def guardRefuses (s : State) (needs : Bool) : Bool :=
  match s.stateGuard with
  | .refuse => s.cont != needs
  | .unchecked => false

/-- The ready test: equality of the whole word with `0x0001` (R126). -/
def isReady (w : Word) : Bool := w == Config.ready

/-- Whether OPEN accepts the period: the bounds are inclusive, and the number is compared before any
truncation (R122, R123). -/
def periodValid (period : Nat) : Bool :=
  decide (Config.periodMin ≤ period ∧ period ≤ Config.periodMax)

/-- The outcome code of a returned outcome (R59). -/
def Returned.code : Returned → Nat
  | .ok _ => 0
  | .err (.busWriteFailed _) => 1
  | .err (.busReadFailed _) => 2
  | .err (.checksumMismatch _ _) => 3
  | .err (.invalidConfiguration _) => 4
  | .err .notReady => 5

/-- The outcome code of a refusal: 6 for PreconditionViolation, 7 for a refused request (R59). -/
def Refusal.code : Refusal → Nat
  | .preconditionViolation => 6
  | _ => 7

end Sys2Proof.Machine
end

