-- ==== Sys2Proof/Machine/Ops.lean ====
section
/-! DEFINITION. The shared operations: how an operation ends (spec/60_exceptions.md R140, R150), the scratch buffers
(10_state.md R13, R14, R21, R26), the bus primitives (20_memory.md R33, R34), SEND and READ as steps of larger
operations (41_framer.md R86, R88), EXEC (42_commands.md R114), reset (70_reset_and_hazards.md R170) and the taking of
the host's next event. -/

namespace Sys2Proof.Machine

open Sys2Proof.Config (TransportError CrcPolicy)

/-! ## How an operation ends -/

/-- The ends of an operation or of a part of one (R140): a value, an Error, a bus primitive that never
answers, a refusal, a fault of the model. -/
inductive Ends (α : Type) where
  | ok (v : α) (s : State)
  | err (x : Error) (s : State)
  | never (s : State)
  | refuse (r : Refusal)
  | fault (f : Fault)

/-- `x ?` (00_scope.md section 4.4): if `m` is not Ok the calling operation ends with that same end,
unmodified; otherwise it goes on with the value. -/
def Ends.bind {α β : Type} (m : Ends α) (k : α → State → Ends β) : Ends β :=
  match m with
  | .ok v s => k v s
  | .err x s => .err x s
  | .never s => .never s
  | .refuse r => .refuse r
  | .fault f => .fault f

/-- The outcome is returned to the host (R140); the block stores it nowhere (R22), the list is the
host's record. -/
def State.returns (s : State) (o : Returned) : State := { s with results := s.results ++ [o] }

/-- The block is busy for ever (R36). -/
def State.hang (s : State) : State := { s with busy := true }

/-- What an operation's end is for the host: this is the block's whole error mechanism (R150). A `raise`
stops the operation at that point and returns the error; nothing is saved, nothing is rolled back, and
the block accepts the next request (R152). There is no return-from-trap (R151). An operation that never
ends has no outcome (R154). -/
def finish : Ends Value → Host.Outcome State Fault Refusal
  | .ok v s => .next (s.returns (.ok v))
  | .err x s => .next (s.returns (.err x))
  | .never s => .next s.hang
  | .refuse r => .refused r
  | .fault f => .fault f

/-- One operation of the host, from its request to its end. A request made while another is in progress
has no meaning (R184). -/
def runOp (s : State) (body : State → Ends Value) : Host.Outcome State Fault Refusal :=
  if s.busy then .refused .requestWhileBusy else finish (body s)

/-! ## The scratch buffers -/

/-- SEND writes `TX[0..TXLEN]` completely (R13). -/
def State.loadTx (s : State) (frame : List Byte) : State :=
  { s with tx := frame, txLen := frame.length }

/-- SEND is done with `TX`: its contents are unspecified from here on (R13), so no cell holds a value. -/
def State.releaseTx (s : State) : State := { s with tx := [], txLen := 0 }

/-- `TX[0..TXLEN]`; a cell that has not been written is a fault (R26). -/
def readTx (s : State) : Ends (List Byte) :=
  if s.txLen ≤ s.tx.length then .ok (s.tx.take s.txLen) s else .fault .unwrittenScratch

/-- READ sets `RXLEN`; no cell of `RX` or `W` has been written yet (R14, R21). -/
def State.beginRead (s : State) (n : Nat) : State :=
  { s with rx := [], rxLen := n, w := [], wLen := 0 }

/-- READ writes `RX[0..RXLEN]` from the transport's answer (R14). -/
def State.loadRx (s : State) (bytes : List Byte) : State := { s with rx := bytes }

/-- READ is done with `RX` and `W`: the caller holds the words and the block keeps nothing (R14, R21). -/
def State.releaseRx (s : State) : State := { s with rx := [], rxLen := 0, w := [], wLen := 0 }

/-- `RX[i]`; a cell that has not been written is a fault (R26). -/
def readRx (i : Nat) (s : State) : Ends Byte :=
  match s.rx[i]? with
  | some b => .ok b s
  | none => .fault .unwrittenScratch

/-- `W[i] <- v`, the words being written in ascending order (R88). -/
def State.pushW (s : State) (v : Word) : State := { s with w := s.w ++ [v] }

/-- `WLEN <- n` (R88). -/
def State.setWLen (s : State) (n : Nat) : State := { s with wLen := n }

/-- `W[0..WLEN]`; a cell that has not been written is a fault (R26). -/
def readW (s : State) : Ends (List Word) :=
  if s.wLen ≤ s.w.length then .ok (s.w.take s.wLen) s else .fault .unwrittenScratch

/-! ## The records and the bus primitives -/

/-- `log(c, r)`: appends an entry to `DIAG` (R19). -/
def State.log (s : State) (computed received : Byte) : State :=
  { s with diag := s.diag ++ [⟨computed, received⟩] }

/-- Appends an event to `HIST` (R20). -/
def State.record (s : State) (e : BusEvent) : State := { s with hist := s.hist ++ [e] }

/-- The transport has given its next answer; `rest` are the ones still to come. -/
def State.answered (s : State) (rest : List (Answer Delivery)) : State := { s with transport := rest }

/-- `BusWrite(addr, v)` (R33): one event, whose result is the transport's answer; it stays pending when
there is none. -/
def busWrite (addr : BusAddr) (v : List Byte) (s : State) : Ends (Answer Unit) :=
  match s.transport with
  | [] => .never (s.record (.write addr v .pending))
  | .ok _ :: rest => .ok (.ok ()) ((s.answered rest).record (.write addr v (.ok ())))
  | .fail e :: rest => .ok (.fail e) ((s.answered rest).record (.write addr v (.fail e)))

/-- `BusRead(addr, n)` (R34): one event, whose result is the transport's answer, an `ok` answer being
exactly `n` bytes (R35); it stays pending when there is none. -/
def busRead (addr : BusAddr) (n : Nat) (s : State) : Ends (Answer (List Byte)) :=
  match s.transport with
  | [] => .never (s.record (.read addr n .pending))
  | .ok bytes :: rest =>
    .ok (.ok (bytes.toList.take n))
      ((s.answered rest).record (.read addr n (.ok (bytes.toList.take n))))
  | .fail e :: rest => .ok (.fail e) ((s.answered rest).record (.read addr n (.fail e)))

/-! ## SEND and READ -/

/-- `SEND(id, data)` (R86): build the frame, hand it over in one bus write, wrap the transport's error. -/
def sendFrame (id : Word) (data : Option Word) (s : State) : Ends Unit :=
  (readTx (s.loadTx (frameOf id data))).bind fun frame s =>
  (busWrite Config.devAddr frame s).bind fun answer s =>
  match answer with
  | .ok _ => .ok () s.releaseTx
  | .fail e => .err (.busWriteFailed e) s.releaseTx

/-- One group of READ (R88, R89, R90): a mismatch is logged; under `strict` it ends the READ; otherwise
the word is taken from the group's first two bytes whatever the verdict. -/
def readGroup (i : Nat) (s : State) : Ends Unit :=
  (readRx (3 * i) s).bind fun b0 s =>
  (readRx (3 * i + 1) s).bind fun b1 s =>
  (readRx (3 * i + 2) s).bind fun c s =>
  if crc8 b0 b1 = c then .ok () (s.pushW (be16 b0 b1))
  else
    match s.crcPolicy with
    | .permissive => .ok () ((s.log (crc8 b0 b1) c).pushW (be16 b0 b1))
    | .strict => .err (.checksumMismatch (crc8 b0 b1) c) (s.log (crc8 b0 b1) c).releaseRx

/-- `k` groups from group `i` on, ascending (R88). -/
def readGroups : Nat → Nat → State → Ends Unit
  | 0, _, s => .ok () s
  | k + 1, i, s => (readGroup i s).bind fun _ s => readGroups k (i + 1) s

/-- `READ(n)` (R88): the precondition first, from `n` alone (R91); one bus read for all groups; then the
groups one after another. -/
def readReply (n : Nat) (s : State) : Ends (List Word) :=
  if n < Config.minWords ∨ Config.maxWords < n then .refuse .preconditionViolation
  else
    (busRead Config.devAddr (Config.groupBytes * n) (s.beginRead (Config.groupBytes * n))).bind fun answer s =>
    match answer with
    | .fail e => .err (.busReadFailed e) s.releaseRx
    | .ok bytes =>
      (readGroups n 0 (s.loadRx bytes)).bind fun _ s =>
      (readW (s.setWLen n)).bind fun words s => .ok words s.releaseRx

/-! ## EXEC -/

/-- `EXEC(cmd)` (R114): the frame of the Command Table, then its reply when it has one. The result is
the reply words, none for a command without reply. -/
def issue (cmd : Command) (s : State) : Ends (List Word) :=
  (sendFrame (commandId cmd) (payload cmd) s).bind fun _ s =>
  if expectedWords cmd = 0 then .ok [] s else readReply (expectedWords cmd) s

/-- What EXEC returns for the reply words of `cmd`: nothing for a command without reply (R114). -/
def replyValue (cmd : Command) (words : List Word) : Value :=
  if expectedWords cmd = 0 then .unit else .words words

/-- EXEC as a whole operation (R114). -/
def execCommand (cmd : Command) (s : State) : Host.Outcome State Fault Refusal :=
  runOp s fun s => (issue cmd s).bind fun words s => .ok (replyValue cmd words) s

/-! ## Reset and the host's next event -/

/-- Reset (R25, R170, R171): the block's own state as after power-on, without bus traffic. The open
parameters, the transport, the host and what it has been told are not the block's and stay. During an
operation it is refused (R172). -/
def hostReset (s : State) : Host.Outcome State Fault Refusal :=
  if s.busy then .refused .resetWhileBusy
  else
    .next { State.reset with
      crcPolicy := s.crcPolicy, stateGuard := s.stateGuard
      transport := s.transport, inbox := s.inbox, results := s.results }

/-- What the block takes up next. -/
inductive Fetched where
  /-- nothing: the host has nothing to issue, or it is blocked by an operation without an answer -/
  | nothing
  /-- a reset, and the state with it taken -/
  | reset (s : State)
  /-- a request, and the state with it taken -/
  | request (r : Request) (s : State)

/-- Takes the host's next event. The host issues one only after the previous operation has its outcome
(R44, R176), so a busy block takes none (R36). -/
def fetch (s : State) : Fetched :=
  if s.busy then .nothing
  else
    match s.inbox with
    | [] => .nothing
    | .reset :: rest => .reset { s with inbox := rest }
    | .request r :: rest => .request r { s with inbox := rest }

/-- The host issues `r` before anything else it has to issue. -/
def State.offer (s : State) (r : Request) : State := { s with inbox := .request r :: s.inbox }

end Sys2Proof.Machine
end

