-- ==== Sys2Proof/Machine/Checksum.lean ====
section
/-! DEFINITION. The meanings of the Checksum Engine's operations (spec/40_checksum.md): CRC8, ADDCHK, VERCHK. They read
and write no state and touch no bus (R79). -/

namespace Sys2Proof.Machine

/-- `CRC8 b0, b1` (R71). -/
def execCrc8 (b0 b1 : Byte) (s : State) : Host.Outcome State Fault Refusal :=
  runOp s fun s => .ok (.byte (crc8 b0 b1)) s

/-- `ADDCHK w` (R75): the word in big-endian order followed by its checksum byte. -/
def execAddChk (w : Word) (s : State) : Host.Outcome State Fault Refusal :=
  runOp s fun s => .ok (.group (hi8 w) (lo8 w) (crc8 (hi8 w) (lo8 w))) s

/-- `VERCHK b0, b1, c` (R76): the word, or a mismatch carrying both values; DIAG is not written. -/
def execVerChk (b0 b1 c : Byte) (s : State) : Host.Outcome State Fault Refusal :=
  runOp s fun s =>
    if crc8 b0 b1 = c then .ok (.word (be16 b0 b1)) s else .err (.checksumMismatch (crc8 b0 b1) c) s

end Sys2Proof.Machine
end

