-- ==== Sys2Proof/Machine/Commands.lean ====
section
/-! DEFINITION. The meanings of EXEC and of the ten commands (spec/42_commands.md): a command asked for by its own frame
is EXEC of that command (R104 to R113, R114). -/

namespace Sys2Proof.Machine

/-- `START_CONT` (R104): `SEND(0x0010, some(0x0000))`, no read. -/
def execStartCont (s : State) : Host.Outcome State Fault Refusal := execCommand .startContinuous s

/-- `STOP_CONT` (R105): `SEND(0x0104, none)`, no read. -/
def execStopCont (s : State) : Host.Outcome State Fault Refusal := execCommand .stopContinuous s

/-- `SET_INTERVAL secs` (R106): `SEND(0x4600, some(secs))`, no read; every u16 is accepted. -/
def execSetInterval (secs : Word) (s : State) : Host.Outcome State Fault Refusal :=
  execCommand (.setContinuousInterval secs) s

/-- `GET_READY` (R107): `SEND(0x0202, none)`, then `READ(1)`; the word is returned as read. -/
def execGetReady (s : State) : Host.Outcome State Fault Refusal := execCommand .getDataReady s

/-- `READ_MEAS` (R108): `SEND(0x0300, none)`, then `READ(6)`. -/
def execReadMeas (s : State) : Host.Outcome State Fault Refusal := execCommand .readMeasurement s

/-- `SET_ASC b` (R109): payload 1 for true, 0 for false. -/
def execSetAsc (b : Bool) (s : State) : Host.Outcome State Fault Refusal :=
  execCommand (.setAutomaticSelfCalibration b) s

/-- `SET_FRC p` (R110). -/
def execSetFrc (p : Word) (s : State) : Host.Outcome State Fault Refusal :=
  execCommand (.setForcedRecalibration p) s

/-- `SET_TOFFSET t` (R111). -/
def execSetToffset (t : Word) (s : State) : Host.Outcome State Fault Refusal :=
  execCommand (.setTemperatureOffset t) s

/-- `SET_ALT m` (R112). -/
def execSetAlt (m : Word) (s : State) : Host.Outcome State Fault Refusal := execCommand (.setAltitude m) s

/-- `SOFT_RESET` (R113): a frame to the sensor; not a reset of the block (R173). -/
def execSoftReset (s : State) : Host.Outcome State Fault Refusal := execCommand .softReset s

/-- `EXEC cmd` (R114). -/
def execExecCmd (cmd : Command) (s : State) : Host.Outcome State Fault Refusal := execCommand cmd s

end Sys2Proof.Machine
end

