-- ==== Sys2Proof/Machine/Driver.lean ====
section
/-! DEFINITION. The meanings of the Device Driver's sequences (spec/43_driver.md): OPEN, SAMPLE, STOP. -/

namespace Sys2Proof.Machine

/-- OPEN's sequence (R122): the guard, the period, the interval frame, the start frame, `CONT <- 1`. A
failure undoes nothing (R124). -/
def openSequence (period : Nat) (s : State) : Ends Value :=
  if guardRefuses s false then .refuse .wrongDriverState
  else if periodValid period then
    (issue (.setContinuousInterval (lowWord period)) s).bind fun _ s =>
    (issue .startContinuous s).bind fun _ s => .ok .unit (s.setCont true)
  else .err (.invalidConfiguration (.periodOutOfRange period)) s

/-- SAMPLE's sequence (R125): the guard, the ready word, then the measurement when it is ready. A reply
word that no READ has written would be a fault (R26). -/
def sampleSequence (s : State) : Ends Value :=
  if guardRefuses s true then .refuse .wrongDriverState
  else
    (issue .getDataReady s).bind fun r s =>
    match r[0]? with
    | none => .fault .unwrittenScratch
    | some word =>
      if isReady word then
        (issue .readMeasurement s).bind fun m s =>
        match sampleOf m with
        | some x => .ok (.sample x) s
        | none => .fault .unwrittenScratch
      else .err .notReady s

/-- STOP's sequence (R130): the guard, the stop frame, `CONT <- 0`; a failed frame leaves `CONT` (R131). -/
def stopSequence (s : State) : Ends Value :=
  if guardRefuses s true then .refuse .wrongDriverState
  else (issue .stopContinuous s).bind fun _ s => .ok .unit (s.setCont false)

/-- `OPEN period` (R122). -/
def execOpen (period : Nat) (s : State) : Host.Outcome State Fault Refusal :=
  runOp s (openSequence period)

/-- `SAMPLE` (R125). -/
def execSample (s : State) : Host.Outcome State Fault Refusal := runOp s sampleSequence

/-- `STOP` (R130). -/
def execStop (s : State) : Host.Outcome State Fault Refusal := runOp s stopSequence

end Sys2Proof.Machine
end

