-- ==== Sys2Proof/Machine/Framer.lean ====
section
/-! DEFINITION. The meanings of the Transport Framer's operations (spec/41_framer.md): SEND, READ. -/

namespace Sys2Proof.Machine

/-- `SEND id` and `SEND id, d` (R86): any identifier, any data (R57). -/
def execSend (id : Word) (data : Option Word) (s : State) : Host.Outcome State Fault Refusal :=
  runOp s fun s => (sendFrame id data s).bind fun _ s => .ok .unit s

/-- `READ n` (R88). -/
def execRead (n : Nat) (s : State) : Host.Outcome State Fault Refusal :=
  runOp s fun s => (readReply n s).bind fun words s => .ok (.words words) s

end Sys2Proof.Machine
end

