-- ==== Sys2Proof/Machine/Dispatch.lean ====
section
/-! DEFINITION. One arm for each constructor of Instr. -/

namespace Sys2Proof.Machine

def exec (i : Instr) (s : State) : Host.Outcome State Fault Refusal :=
  match i with
  | .startCont => Sys2Proof.Machine.execStartCont s
  | .stopCont => Sys2Proof.Machine.execStopCont s
  | .setInterval secs => Sys2Proof.Machine.execSetInterval secs s
  | .getReady => Sys2Proof.Machine.execGetReady s
  | .readMeas => Sys2Proof.Machine.execReadMeas s
  | .setAsc b => Sys2Proof.Machine.execSetAsc b s
  | .setFrc p => Sys2Proof.Machine.execSetFrc p s
  | .setToffset t => Sys2Proof.Machine.execSetToffset t s
  | .setAlt m => Sys2Proof.Machine.execSetAlt m s
  | .softReset => Sys2Proof.Machine.execSoftReset s
  | .crc8 b0 b1 => Sys2Proof.Machine.execCrc8 b0 b1 s
  | .addChk w => Sys2Proof.Machine.execAddChk w s
  | .verChk b0 b1 c => Sys2Proof.Machine.execVerChk b0 b1 c s
  | .send id data => Sys2Proof.Machine.execSend id data s
  | .read n => Sys2Proof.Machine.execRead n s
  | .execCmd cmd => Sys2Proof.Machine.execExecCmd cmd s
  | .openDriver period => Sys2Proof.Machine.execOpen period s
  | .sampleDriver => Sys2Proof.Machine.execSample s
  | .stopDriver => Sys2Proof.Machine.execStop s

end Sys2Proof.Machine
end

