-- ==== Sys2Proof/Machine/Step.lean ====
section
/-! DEFINITION. One step: the block takes the host's next event and carries it out whole (spec/20_memory.md R44). -/

namespace Sys2Proof.Machine

/-- One step. With nothing to take up (the block is idle, or busy for ever) nothing changes (R36, R170). -/
def step (s : State) : Host.Outcome State Fault Refusal :=
  match fetch s with
  | .nothing => .next s
  | .reset s' => hostReset s'
  | .request r s' =>
    match decode r with
    | .ok i => exec i s'
    | .error why => .refused (.undecodable why)

/-- `s` with the instruction whose bits are `w` as the host's next request (notes/assumptions/1.md). -/
def State.withFetchWord (s : State) (nbits w : Nat) : State := s.offer (tableRequest nbits w)

end Sys2Proof.Machine
end

