-- ==== Sys2Proof/Safety.lean ====
section
/-! DEFINITION. The terms claims are stated in: what of a state the spec lets anyone rely on, the bus traffic and the
outcomes each operation may have, the pure reading of a reply, and the invariant of the machine. -/

namespace Sys2Proof.Machine

/-! ## What of a state may be relied on -/

/-- The state without its scratch buffers, whose contents between operations are unspecified (R13, R14,
R21, R150). -/
def State.visible (s : State) : State :=
  { s with tx := [], txLen := 0, rx := [], rxLen := 0, w := [], wLen := 0 }

/-- The operation completes with a next state that is `t` in everything but the scratch buffers. -/
def CompletesIn (o : Host.Outcome State Fault Refusal) (t : State) : Prop :=
  ∃ t', o = .next t' ∧ t'.visible = t.visible

/-- The run has ended: the last request has its outcome (R176). -/
def State.runEnded (s : State) : Bool := !s.busy && s.inbox.isEmpty

/-! ## The pure reading of a reply (R51, R89, R94) -/

/-- The first `n` bytes of a delivery: what a read of `n` bytes gets (R34). -/
def delivered (d : Delivery) (n : Nat) : List Byte := d.toList.take n

/-- Byte `i` of a delivery. -/
def byteAt (d : Delivery) (i : Nat) : Byte := d.toList.getD i 0

/-- The word of group `i` (R89). -/
def groupWord (d : Delivery) (i : Nat) : Word := be16 (byteAt d (3 * i)) (byteAt d (3 * i + 1))

/-- The words of the groups `i` to `i + k - 1`, ascending. -/
def wordsFrom (d : Delivery) : Nat → Nat → List Word
  | 0, _ => []
  | k + 1, i => groupWord d i :: wordsFrom d k (i + 1)

/-- The diagnostic entries of the groups `i` to `i + k - 1`, ascending: computed and received checksum
of each group where the two differ (R19, R90). -/
def mismatchesFrom (d : Delivery) : Nat → Nat → List DiagEntry
  | 0, _ => []
  | k + 1, i =>
    if crc8 (byteAt d (3 * i)) (byteAt d (3 * i + 1)) = byteAt d (3 * i + 2) then mismatchesFrom d k (i + 1)
    else ⟨crc8 (byteAt d (3 * i)) (byteAt d (3 * i + 1)), byteAt d (3 * i + 2)⟩ :: mismatchesFrom d k (i + 1)

/-- The words of a reply of `n` groups. -/
def replyWords (d : Delivery) (n : Nat) : List Word := wordsFrom d n 0

/-- The mismatches of a reply of `n` groups, lowest-numbered group first. -/
def replyMismatches (d : Delivery) (n : Nat) : List DiagEntry := mismatchesFrom d n 0

/-! ## Bus traffic (R40, R134) -/

/-- One transaction without its result. -/
inductive Transaction where
  | write (bytes : List Byte)
  | read (n : Nat)
deriving DecidableEq, Repr

/-- The transaction of an event. -/
def BusEvent.transaction : BusEvent → Transaction
  | .write _ bytes _ => .write bytes
  | .read _ n _ => .read n

/-- The address of an event. -/
def BusEvent.addr : BusEvent → BusAddr
  | .write a _ _ => a
  | .read a _ _ => a

/-- The transport answered `ok`. -/
def BusEvent.succeeded : BusEvent → Bool
  | .write _ _ (.ok _) | .read _ _ (.ok _) => true
  | _ => false

/-- The transport has answered. -/
def BusEvent.hasAnswer : BusEvent → Bool
  | .write _ _ .pending | .read _ _ .pending => false
  | _ => true

/-- The transactions of one command (R114). -/
def commandTraffic (cmd : Command) : List Transaction :=
  .write (frameOf (commandId cmd) (payload cmd)) ::
    (if expectedWords cmd = 0 then [] else [.read (3 * expectedWords cmd)])

/-- The transactions of an operation that meets no failure, in order (R40, R61, R134). -/
def traffic : Instr → List Transaction
  | .startCont => [.write [0x00, 0x10, 0x00, 0x00, 0x81]]
  | .stopCont => [.write [0x01, 0x04]]
  | .setInterval s => [.write [0x46, 0x00, hi8 s, lo8 s, crc8 (hi8 s) (lo8 s)]]
  | .getReady => [.write [0x02, 0x02], .read 3]
  | .readMeas => [.write [0x03, 0x00], .read 18]
  | .setAsc b => [.write (if b then [0x53, 0x06, 0x00, 0x01, 0xB0] else [0x53, 0x06, 0x00, 0x00, 0x81])]
  | .setFrc p => [.write [0x52, 0x04, hi8 p, lo8 p, crc8 (hi8 p) (lo8 p)]]
  | .setToffset t => [.write [0x54, 0x03, hi8 t, lo8 t, crc8 (hi8 t) (lo8 t)]]
  | .setAlt m => [.write [0x51, 0x02, hi8 m, lo8 m, crc8 (hi8 m) (lo8 m)]]
  | .softReset => [.write [0xD3, 0x04]]
  | .crc8 _ _ | .addChk _ | .verChk _ _ _ => []
  | .send id none => [.write [hi8 id, lo8 id]]
  | .send id (some d) => [.write [hi8 id, lo8 id, hi8 d, lo8 d, crc8 (hi8 d) (lo8 d)]]
  | .read n => [.read (3 * n)]
  | .execCmd cmd => commandTraffic cmd
  | .openDriver p =>
    if 2 ≤ p ∧ p ≤ 1800 then
      [.write [0x46, 0x00, hi8 (lowWord p), lo8 (lowWord p), crc8 (hi8 (lowWord p)) (lo8 (lowWord p))],
       .write [0x00, 0x10, 0x00, 0x00, 0x81]]
    else []
  | .sampleDriver => [.write [0x02, 0x02], .read 3, .write [0x03, 0x00], .read 18]
  | .stopDriver => [.write [0x01, 0x04]]

/-- A write of `bytes` to the sensor that the transport answered `ok`. -/
def wrote (bytes : List Byte) : BusEvent := .write 0x61 bytes (.ok ())

/-- A write of `bytes` to the sensor that the transport answered `fail(e)`. -/
def writeFailed (bytes : List Byte) (e : Config.TransportError) : BusEvent := .write 0x61 bytes (.fail e)

/-- A write of `bytes` to the sensor that the transport has not answered. -/
def writePending (bytes : List Byte) : BusEvent := .write 0x61 bytes .pending

/-- A read of `n` bytes from the sensor that the transport answered with those of `d`. -/
def got (n : Nat) (d : Delivery) : BusEvent := .read 0x61 n (.ok (delivered d n))

/-- A read of `n` bytes from the sensor that the transport answered `fail(e)`. -/
def readFailed (n : Nat) (e : Config.TransportError) : BusEvent := .read 0x61 n (.fail e)

/-- A read of `n` bytes from the sensor that the transport has not answered. -/
def readPending (n : Nat) : BusEvent := .read 0x61 n .pending

/-- `s` after an operation that made the transactions `evs`, logged `ms`, left the transport with the
answers `rest` and returned `o`, everything else unchanged. -/
def State.after (s : State) (evs : List BusEvent) (ms : List DiagEntry) (rest : List (Answer Delivery))
    (o : Returned) : State :=
  { s with hist := s.hist ++ evs, diag := s.diag ++ ms, transport := rest, results := s.results ++ [o] }

/-- `s` in an operation that made the transactions `evs`, the last of them without an answer, and logged
`ms`: it returns nothing and stays busy (R36, R154). -/
def State.stuckAfter (s : State) (evs : List BusEvent) (ms : List DiagEntry) : State :=
  { s with hist := s.hist ++ evs, diag := s.diag ++ ms, transport := [], busy := true }

/-- The state guard lets an operation through that needs `CONT = needs` (R121). -/
def GuardPasses (s : State) (needs : Bool) : Prop := s.stateGuard = .unchecked ∨ s.cont = needs

/-- A reply of `n` groups is taken whole: the policy is permissive, or no group mismatches (R90). -/
def Taken (s : State) (d : Delivery) (n : Nat) : Prop :=
  s.crcPolicy = .permissive ∨ replyMismatches d n = []

/-! ## Corrupted groups (R78) -/

/-- The group `[b0, b1, c]`, seen as one 24-bit number (R51), verifies. -/
def groupVerifies (g : BitVec 24) : Bool :=
  crc8 (g.extractLsb' 16 8) (g.extractLsb' 8 8) == g.extractLsb' 0 8

/-- The number of bits set in an error pattern. -/
def weight (e : BitVec 24) : Nat := ((List.range 24).filter fun i => e.getLsbD i).length

/-- The error pattern that flips bits `i`, `j`, `k` and `l`. -/
def flips4 (i j k l : Nat) : BitVec 24 :=
  (1#24 <<< i) ||| (1#24 <<< j) ||| (1#24 <<< k) ||| (1#24 <<< l)

/-- All error patterns of weight 4, each once. -/
def fourBitPatterns : List (BitVec 24) :=
  (List.range 24).flatMap fun l => (List.range l).flatMap fun k =>
    (List.range k).flatMap fun j => (List.range j).map fun i => flips4 i j k l

/-! ## Outcomes (R148) -/

/-- The outcomes a command may return: its value's form, a bus failure of a transaction it makes, and a
mismatch where it reads under the strict policy. -/
def commandMayReturn (strict : Bool) (cmd : Command) : Returned → Bool
  | .ok .unit => expectedWords cmd == 0
  | .ok (.words ws) => expectedWords cmd != 0 && ws.length == expectedWords cmd
  | .err (.busWriteFailed _) => true
  | .err (.busReadFailed _) => expectedWords cmd != 0
  | .err (.checksumMismatch _ _) => expectedWords cmd != 0 && strict
  | _ => false

/-- The table of R148: whether operation `i` may return outcome `o`, the policy being strict or not. -/
def mayReturn (strict : Bool) (i : Instr) (o : Returned) : Bool :=
  match i with
  | .startCont => commandMayReturn strict .startContinuous o
  | .stopCont => commandMayReturn strict .stopContinuous o
  | .setInterval s => commandMayReturn strict (.setContinuousInterval s) o
  | .getReady => commandMayReturn strict .getDataReady o
  | .readMeas => commandMayReturn strict .readMeasurement o
  | .setAsc b => commandMayReturn strict (.setAutomaticSelfCalibration b) o
  | .setFrc p => commandMayReturn strict (.setForcedRecalibration p) o
  | .setToffset t => commandMayReturn strict (.setTemperatureOffset t) o
  | .setAlt m => commandMayReturn strict (.setAltitude m) o
  | .softReset => commandMayReturn strict .softReset o
  | .execCmd cmd => commandMayReturn strict cmd o
  | .crc8 _ _ =>
    match o with
    | .ok (.byte _) => true
    | _ => false
  | .addChk _ =>
    match o with
    | .ok (.group _ _ _) => true
    | _ => false
  | .verChk _ _ _ =>
    match o with
    | .ok (.word _) | .err (.checksumMismatch _ _) => true
    | _ => false
  | .send _ _ | .stopDriver =>
    match o with
    | .ok .unit | .err (.busWriteFailed _) => true
    | _ => false
  | .read n =>
    match o with
    | .ok (.words ws) => ws.length == n
    | .err (.busReadFailed _) => true
    | .err (.checksumMismatch _ _) => strict
    | _ => false
  | .openDriver _ =>
    match o with
    | .ok .unit | .err (.busWriteFailed _) | .err (.invalidConfiguration _) => true
    | _ => false
  | .sampleDriver =>
    match o with
    | .ok (.sample _) | .err (.busWriteFailed _) | .err (.busReadFailed _) | .err .notReady => true
    | .err (.checksumMismatch _ _) => strict
    | _ => false

/-! ## The invariant -/

/-- A write event carries a frame of format S or L (R50), to `0x61` (R30); a read event asks for 3 to 18
bytes in whole groups (R34), and an `ok` answer is exactly that many bytes (R35). -/
def BusEvent.Lawful : BusEvent → Prop
  | .write a bytes _ => a = 0x61 ∧ ∃ id data, bytes = frameOf id data
  | .read a n r => a = 0x61 ∧ (∃ k, 1 ≤ k ∧ k ≤ 6 ∧ n = 3 * k) ∧ ∀ bytes, r = .ok bytes → bytes.length = n

/-- What every step keeps. -/
structure State.Inv (s : State) : Prop where
  /-- every event but the last has its answer (R44) -/
  earlierAnswered : ∀ e ∈ s.hist.dropLast, e.hasAnswer = true
  /-- the last event is pending exactly when the block is busy (R36, R44) -/
  lastPending : s.busy = true ↔ ∃ e, s.hist.getLast? = some e ∧ e.hasAnswer = false
  /-- every event is one the block can issue -/
  lawful : ∀ e ∈ s.hist, e.Lawful
  /-- `DIAG` holds mismatches only (R19) -/
  mismatches : ∀ d ∈ s.diag, d.computed ≠ d.received
  /-- `TX` stays in its 5 bytes and `TXLEN` counts its valid ones (R13, R95) -/
  txBounded : s.tx.length ≤ 5 ∧ s.txLen = s.tx.length
  /-- `RX` stays in its 18 bytes (R14, R95) -/
  rxBounded : s.rx.length ≤ s.rxLen ∧ s.rxLen ≤ 18
  /-- `W` stays in its 6 words (R21) -/
  wBounded : s.w.length ≤ 6
  /-- between operations no cell of a buffer holds a value (R13, R14, R21) -/
  scratchEmpty : s.busy = false → s.visible = s

end Sys2Proof.Machine
end

