-- ==== Sys2Proof/Certificates/Slice0/Obligations.lean ====
section
/-! DEFINITION. The statements for the provers, each a formalisation of rules of the spec. A hypothesis
`s.busy = false` says that no operation is in progress (R44, R184). Statements about a next state compare it in
everything but the scratch buffers (`CompletesIn`), whose contents between operations are unspecified (R13, R14). -/

open Sys2Proof Sys2Proof.Machine

/-! ## Encoding -/

/-- Decoding an encoded instruction gives it back, at every value of every operand. The frames and select
codes are R58's and R61's; the layout of a host request's operands is the model's choice (log 1). -/
def Obligations.DecodeUndoesEncode : Prop :=
  ∀ i : Instr, decode (encode i) = .ok i

/-- A request that decodes is the encoding of what it decodes to, but for the last byte of a format L frame, which
the block computes itself and the opcode table's mask leaves out (log 1): no other bit of a request is ignored,
and no two requests that differ in another bit stand for the same instruction (layout of operands: log 1). -/
def Obligations.EncodeUndoesDecode : Prop :=
  ∀ (r : Request) (i : Instr), decode r = .ok i → encode i = r.sealed

/-- A request that has not the length of its format is rejected: a frame is 2 or 5 bytes (R50, R52); the
lengths of host requests are the model's choice (log 1). -/
def Obligations.RequestOfWrongShapeIsRejected : Prop :=
  ∀ r : Request, r.wf = false → ∃ why, decode r = .error why

/-- Frames written out from R61, and select codes from R58, decode to what they stand for. That a frame is decoded as a
request at all, that START_CONT's frame with another last byte is rejected, and the operand bytes of the host request
are the model's choice (log 1). -/
def Obligations.WrittenOutWordsDecode : Prop :=
  decode ⟨.long, [0x00, 0x10, 0x00, 0x00, 0x81]⟩ = .ok .startCont ∧
  decode ⟨.short, [0xD3, 0x04]⟩ = .ok .softReset ∧
  decode ⟨.long, [0x46, 0x00, 0x07, 0x08, 0x96]⟩ = .ok (.setInterval 1800) ∧
  decode ⟨.long, [0x53, 0x06, 0x00, 0x01, 0xB0]⟩ = .ok (.setAsc true) ∧
  decode ⟨.long, [0x00, 0x10, 0x00, 0x00, 0x80]⟩ = .error (.badChecksum 0x81 0x80) ∧
  decode ⟨.host, [0, 0xBE, 0xEF]⟩ = .ok (.crc8 0xBE 0xEF) ∧
  decode ⟨.host, [8]⟩ = .ok .stopDriver

/-- A request with a host select value 9 to 15 is refused (R58, R148). -/
def Obligations.ReservedSelectsAreRefused : Prop :=
  ∀ (s : State) (sel : Byte) (ops : List Byte) (rest : List HostEvent),
    s.busy = false → 9 ≤ sel.toNat → sel.toNat ≤ 15 → s.inbox = .request (hostRequest sel ops) :: rest →
    step s = .refused (.undecodable (.reservedSelect sel))

/-- The word helpers agree with the byte order of R37: high byte first, high half first. -/
def Obligations.BigEndianAssembly : Prop :=
  (∀ w : Word, be16 (hi8 w) (lo8 w) = w) ∧
  (∀ b0 b1 : Byte, hi8 (be16 b0 b1) = b0 ∧ lo8 (be16 b0 b1) = b1) ∧
  (∀ b0 b1 b2 b3 : Byte, be32 (be16 b0 b1) (be16 b2 b3) = b0 ++ b1 ++ b2 ++ b3)

/-- The outcome codes of R59: Ok 0, the five Error members 1 to 5 in the order of R141,
PreconditionViolation 6, every other refusal 7. -/
def Obligations.OutcomeCodes : Prop :=
  (∀ v, (Returned.ok v).code = 0) ∧
  (∀ e, (Returned.err (.busWriteFailed e)).code = 1) ∧
  (∀ e, (Returned.err (.busReadFailed e)).code = 2) ∧
  (∀ k c, (Returned.err (.checksumMismatch k c)).code = 3) ∧
  (∀ r, (Returned.err (.invalidConfiguration r)).code = 4) ∧
  (Returned.err .notReady).code = 5 ∧
  Refusal.preconditionViolation.code = 6 ∧ (∀ r : Refusal, r ≠ .preconditionViolation → r.code = 7)

/-! ## The step, reset, and the hang -/

/-- When the host's next event is a request that decodes to `i`, a step of an idle block is exec of `i`,
the request being taken (R44, R176). -/
def Obligations.StepRunsTheDecodedRequest : Prop :=
  ∀ (s : State) (r : Request) (rest : List HostEvent) (i : Instr),
    s.busy = false → s.inbox = .request r :: rest → decode r = .ok i →
    step s = exec i { s with inbox := rest }

/-- A word placed by `withFetchWord` is what the next step of an idle block runs. -/
def Obligations.StepRunsTheFetchWord : Prop :=
  ∀ (s : State) (nbits w : Nat) (i : Instr),
    s.busy = false → decodeTableWord nbits w = some i → step (s.withFetchWord nbits w) = exec i s

/-- With nothing to take up a step changes nothing: the idle block waits for a request (R170); a block whose
transport never answers accepts nothing and changes no state (R36). -/
def Obligations.StepWithNothingToTakeUp : Prop :=
  ∀ s : State, s.busy = true ∨ s.inbox = [] → step s = .next s

/-- A hung block is busy for ever: any number of steps leaves it as it is (R36, R154). -/
def Obligations.HungBlockStaysHung : Prop :=
  ∀ (s : State) (k : Nat), s.busy = true → Host.Core.run Sys2Proof.core k s = .next s

/-- A reset between operations leaves the state of R25 (Stopped, both records empty, no buffer cell holding a
value, idle) and makes no bus traffic (R171). That the open parameters, the transport's answers, the host's
list and what it has been told stay is the model's choice (log 9). -/
def Obligations.ResetEventRestoresTheResetState : Prop :=
  ∀ (s : State) (rest : List HostEvent),
    s.busy = false → s.inbox = .reset :: rest →
    ∃ t, step s = .next t ∧ t.cont = false ∧ t.diag = [] ∧ t.hist = [] ∧ t.busy = false ∧
      t.tx = [] ∧ t.rx = [] ∧ t.w = [] ∧
      t.transport = s.transport ∧ t.inbox = rest ∧ t.results = s.results ∧
      t.crcPolicy = s.crcPolicy ∧ t.stateGuard = s.stateGuard

/-- A reset while an operation is in progress is refused (R172). -/
def Obligations.ResetDuringAnOperationIsRefused : Prop :=
  ∀ s : State, s.busy = true → hostReset s = .refused .resetWhileBusy

/-- After reset the driver state is Stopped and both records are empty (R25, R170); the parameters have R7's
defaults; no cell of a buffer can be read (R26). -/
def Obligations.ResetValues : Prop :=
  State.reset.cont = false ∧ State.reset.diag = [] ∧ State.reset.hist = [] ∧ State.reset.busy = false ∧
  State.reset.crcPolicy = .permissive ∧ State.reset.stateGuard = .refuse ∧
  (∀ i, readRx i State.reset = .fault .unwrittenScratch) ∧ State.reset.tx = [] ∧ State.reset.w = []

/-- A request made while an operation is in progress has no meaning (R184). -/
def Obligations.OverlappingRequestIsRefused : Prop :=
  ∀ (i : Instr) (s : State), s.busy = true → exec i s = .refused .requestWhileBusy

/-! ## Checksum Engine -/

/-- No operation of the Checksum Engine touches the bus, reads or writes state, or can block; the only error
is VERCHK's ChecksumMismatch (R79). Each completes: CRC8 with the checksum (R71), ADDCHK with the word in
big-endian order and its checksum (R75), VERCHK with the word when the checksums are equal and with a
mismatch carrying both values otherwise (R76). -/
def Obligations.ChecksumOperationsArePure : Prop :=
  ∀ s : State, s.busy = false →
    (∀ b0 b1 : Byte, exec (.crc8 b0 b1) s = .next { s with results := s.results ++ [.ok (.byte (crc8 b0 b1))] }) ∧
    (∀ w : Word, exec (.addChk w) s =
      .next { s with results := s.results ++ [.ok (.group (hi8 w) (lo8 w) (crc8 (hi8 w) (lo8 w)))] }) ∧
    (∀ b0 b1 c : Byte, crc8 b0 b1 = c →
      exec (.verChk b0 b1 c) s = .next { s with results := s.results ++ [.ok (.word (be16 b0 b1))] }) ∧
    (∀ b0 b1 c : Byte, crc8 b0 b1 ≠ c →
      exec (.verChk b0 b1 c) s =
        .next { s with results := s.results ++ [.err (.checksumMismatch (crc8 b0 b1) c)] })

/-- Round trip: what ADDCHK returns for a word verifies, and VERCHK returns the word (R77). -/
def Obligations.ChecksumRoundTrip : Prop :=
  ∀ (w : Word) (s : State), s.busy = false →
    ∃ (t : State) (b0 b1 c : Byte), exec (.addChk w) s = .next t ∧
      t.results = s.results ++ [.ok (.group b0 b1 c)] ∧
      exec (.verChk b0 b1 c) t = .next { t with results := t.results ++ [.ok (.word w)] }

/-- The bit-serial form and the table form compute the checksum of R71 on every input (R73). -/
def Obligations.ThreeFormsOfTheChecksumAgree : Prop :=
  ∀ b0 b1 : Byte, crc8Serial b0 b1 = crc8 b0 b1 ∧ crc8Table b0 b1 = crc8 b0 b1

/-- Residue: the procedure run over the whole group ends in zero exactly when the group verifies (R78, 1). -/
def Obligations.ChecksumResidue : Prop :=
  ∀ b0 b1 c : Byte, crcFrom Config.crcInit [b0, b1, c] = 0 ↔ c = crc8 b0 b1

/-- For each value of one byte of the word, the checksum is a bijection of the other (R78, 2). -/
def Obligations.ChecksumIsBijectiveInEachByte : Prop :=
  (∀ b0 : Byte, Function.Bijective fun b1 => crc8 b0 b1) ∧
  (∀ b1 : Byte, Function.Bijective fun b0 => crc8 b0 b1)

/-- The checksum is affine over xor (R78, 3). -/
def Obligations.ChecksumIsAffine : Prop :=
  ∀ x0 x1 y0 y1 : Byte,
    crc8 x0 x1 ^^^ crc8 y0 y1 ^^^ crc8 0 0 = crc8 (x0 ^^^ y0) (x1 ^^^ y1) ∧ crc8 0 0 = 0x81

/-- A corruption of a verifying group that flips 1, 2 or 3 bits, or any odd number of bits, or bits within 8
consecutive ones, never verifies (R78, 4). -/
def Obligations.SmallCorruptionsNeverVerify : Prop :=
  ∀ g e : BitVec 24, groupVerifies g = true →
    ((1 ≤ weight e ∧ weight e ≤ 3) ∨ weight e % 2 = 1 ∨
      (∃ (m : Byte) (k : Nat), k ≤ 16 ∧ m ≠ 0 ∧ e = m.zeroExtend 24 <<< k)) →
    groupVerifies (g ^^^ e) = false

/-- Exactly 80 of the four-bit corruptions of a verifying group still verify (R78, 4). -/
def Obligations.EightyFourBitCorruptionsVerify : Prop :=
  ∀ g : BitVec 24, groupVerifies g = true →
    (fourBitPatterns.filter fun e => groupVerifies (g ^^^ e)).length = 80

/-! ## Transport Framer -/

/-- SEND (R86, R57): for any identifier and any data, one bus write to `0x61` of the 2 or 5 bytes of the frame,
big-endian, the checksum over the data word only. `Ok` when the transport answers ok, `BusWriteFailed(e)` with
`e` unchanged when it fails, no outcome when it never answers, `TX` then holding the frame (the form of the hang is
the model's, log 5). CONT and DIAG are unchanged. -/
def Obligations.SendMeaning : Prop :=
  ∀ (s : State) (id : Word) (data : Option Word) (frame : List Byte), s.busy = false →
    ((data = none ∧ frame = [hi8 id, lo8 id]) ∨
      (∃ d, data = some d ∧ frame = [hi8 id, lo8 id, hi8 d, lo8 d, crc8 (hi8 d) (lo8 d)])) →
    (∀ d rest, s.transport = .ok d :: rest →
      CompletesIn (exec (.send id data) s) (s.after [wrote frame] [] rest (.ok .unit))) ∧
    (∀ e rest, s.transport = .fail e :: rest →
      CompletesIn (exec (.send id data) s) (s.after [writeFailed frame e] [] rest (.err (.busWriteFailed e)))) ∧
    (s.transport = [] →
      ∃ t, exec (.send id data) s = .next t ∧ t.visible = (s.stuckAfter [writePending frame] []).visible ∧
        t.tx = frame ∧ t.txLen = frame.length)

/-- READ's precondition comes first and uses the count alone: outside 1..=6 the request is aborted whatever the
state, and inside it never is (R91). -/
def Obligations.ReadPrecondition : Prop :=
  ∀ (s : State) (n : Nat), s.busy = false →
    (n < 1 ∨ 6 < n ↔ exec (.read n) s = .refused .preconditionViolation)

/-- Under the permissive policy READ returns `Ok` for every delivery: the words are the first two bytes of each
group, and DIAG gets exactly the groups whose checksum differs, ascending (R94, R89). One bus read of 3n
bytes is made. -/
def Obligations.ReadPermissive : Prop :=
  ∀ (s : State) (n : Nat) (d : Delivery) (rest : List (Answer Delivery)),
    s.busy = false → s.crcPolicy = .permissive → 1 ≤ n → n ≤ 6 → s.transport = .ok d :: rest →
    CompletesIn (exec (.read n) s) (s.after [got (3 * n) d]
      ((List.range n).filterMap fun i =>
        if crc8 (byteAt d (3 * i)) (byteAt d (3 * i + 1)) = byteAt d (3 * i + 2) then none
        else some ⟨crc8 (byteAt d (3 * i)) (byteAt d (3 * i + 1)), byteAt d (3 * i + 2)⟩)
      rest
      (.ok (.words ((List.range n).map fun i => be16 (byteAt d (3 * i)) (byteAt d (3 * i + 1))))))

/-- Under the strict policy READ returns the words when every group verifies; otherwise it logs the
lowest-numbered mismatching group only and ends with that mismatch (R90). -/
def Obligations.ReadStrict : Prop :=
  ∀ (s : State) (n : Nat) (d : Delivery) (rest : List (Answer Delivery)),
    s.busy = false → s.crcPolicy = .strict → 1 ≤ n → n ≤ 6 → s.transport = .ok d :: rest →
    ((∀ i, i < n → crc8 (byteAt d (3 * i)) (byteAt d (3 * i + 1)) = byteAt d (3 * i + 2)) →
      CompletesIn (exec (.read n) s) (s.after [got (3 * n) d] [] rest
        (.ok (.words ((List.range n).map fun i => be16 (byteAt d (3 * i)) (byteAt d (3 * i + 1))))))) ∧
    (∀ i, i < n → (∀ j, j < i → crc8 (byteAt d (3 * j)) (byteAt d (3 * j + 1)) = byteAt d (3 * j + 2)) →
      crc8 (byteAt d (3 * i)) (byteAt d (3 * i + 1)) ≠ byteAt d (3 * i + 2) →
      CompletesIn (exec (.read n) s) (s.after [got (3 * n) d]
        [⟨crc8 (byteAt d (3 * i)) (byteAt d (3 * i + 1)), byteAt d (3 * i + 2)⟩] rest
        (.err (.checksumMismatch (crc8 (byteAt d (3 * i)) (byteAt d (3 * i + 1))) (byteAt d (3 * i + 2))))))

/-- When the transport fails the read, READ examines no group, logs nothing and returns no word, but the
transport's error unmodified; the block is idle and CONT as it was, so the caller may retry, and the retry
makes a fresh bus read (R92). When the transport never answers there is no outcome (R154; the form of the hang is the
model's, log 5). -/
def Obligations.ReadBusFailure : Prop :=
  ∀ (s : State) (n : Nat), s.busy = false → 1 ≤ n → n ≤ 6 →
    (∀ e rest, s.transport = .fail e :: rest →
      ∃ t, exec (.read n) s = .next t ∧
        t.visible = (s.after [readFailed (3 * n) e] [] rest (.err (.busReadFailed e))).visible ∧
        (∀ a rest', rest = a :: rest' →
          ∃ t' e', exec (.read n) t = .next t' ∧ t'.hist = t.hist ++ [e'] ∧ e'.transaction = .read (3 * n) ∧
            t'.transport = rest')) ∧
    (s.transport = [] → CompletesIn (exec (.read n) s) (s.stuckAfter [readPending (3 * n)] []))

/-- Under the permissive policy the checksum bytes of a reply influence only DIAG (and the history, which
records the delivered bytes): two deliveries with the same data bytes give the same results (R89, R94). -/
def Obligations.ChecksumBytesInfluenceOnlyDiag : Prop :=
  ∀ (s t t' : State) (n : Nat) (d d' : Delivery) (rest : List (Answer Delivery)),
    s.crcPolicy = .permissive →
    (∀ i, i < n → byteAt d (3 * i) = byteAt d' (3 * i) ∧ byteAt d (3 * i + 1) = byteAt d' (3 * i + 1)) →
    exec (.read n) { s with transport := .ok d :: rest } = .next t →
    exec (.read n) { s with transport := .ok d' :: rest } = .next t' →
    { t with diag := [], hist := [] } = { t' with diag := [], hist := [] }

/-! ## Command Table -/

/-- The three lookups, for every variant (R101, R102, R103). -/
def Obligations.CommandLookups : Prop :=
  ∀ (x : Word) (b : Bool),
    ([Command.startContinuous, .stopContinuous, .setContinuousInterval x, .getDataReady, .readMeasurement,
      .setAutomaticSelfCalibration b, .setForcedRecalibration x, .setTemperatureOffset x, .setAltitude x,
      .softReset].map fun c => (commandId c, payload c, expectedWords c)) =
    [(0x0010, some 0x0000, 0), (0x0104, none, 0), (0x4600, some x, 0), (0x0202, none, 1), (0x0300, none, 6),
     (0x5306, some (if b then 0x0001 else 0x0000), 0), (0x5204, some x, 0), (0x5403, some x, 0),
     (0x5102, some x, 0), (0xD304, none, 0)]

/-- The ten identifiers are pairwise distinct: commands with the same identifier are the same variant, and with
the same payload the same command (R53). -/
def Obligations.CommandIdentifiersAreDistinct : Prop :=
  ∀ c c' : Command, commandId c = commandId c' →
    commandSelect c = commandSelect c' ∧ (payload c = payload c' → c = c')

/-- A command without reply makes one bus write, of the frame R104 to R106 and R109 to R113 give it, and no
read: `Ok(())` when the write succeeds, `BusWriteFailed(e)` when it fails, no outcome when it is never answered (the
form of the hang is the model's, log 5); nothing else of the block changes. -/
def Obligations.CommandsWithoutReply : Prop :=
  ∀ (s : State) (i : Instr) (frame : List Byte), s.busy = false →
    ((i = .startCont ∧ frame = [0x00, 0x10, 0x00, 0x00, 0x81]) ∨
     (i = .stopCont ∧ frame = [0x01, 0x04]) ∨
     (∃ x, i = .setInterval x ∧ frame = [0x46, 0x00, hi8 x, lo8 x, crc8 (hi8 x) (lo8 x)]) ∨
     (i = .setAsc true ∧ frame = [0x53, 0x06, 0x00, 0x01, 0xB0]) ∨
     (i = .setAsc false ∧ frame = [0x53, 0x06, 0x00, 0x00, 0x81]) ∨
     (∃ x, i = .setFrc x ∧ frame = [0x52, 0x04, hi8 x, lo8 x, crc8 (hi8 x) (lo8 x)]) ∨
     (∃ x, i = .setToffset x ∧ frame = [0x54, 0x03, hi8 x, lo8 x, crc8 (hi8 x) (lo8 x)]) ∨
     (∃ x, i = .setAlt x ∧ frame = [0x51, 0x02, hi8 x, lo8 x, crc8 (hi8 x) (lo8 x)]) ∨
     (i = .softReset ∧ frame = [0xD3, 0x04])) →
    (∀ d rest, s.transport = .ok d :: rest →
      CompletesIn (exec i s) (s.after [wrote frame] [] rest (.ok .unit))) ∧
    (∀ e rest, s.transport = .fail e :: rest →
      CompletesIn (exec i s) (s.after [writeFailed frame e] [] rest (.err (.busWriteFailed e)))) ∧
    (s.transport = [] → CompletesIn (exec i s) (s.stuckAfter [writePending frame] []))

/-- GET_READY and READ_MEAS write their frame and then read one or six groups (R107, R108): the words as read;
`BusWriteFailed` without a read; `BusReadFailed`; under the strict policy the first mismatch; no outcome when the write
or the read is never answered (the form of the hang is the model's, log 5). -/
def Obligations.CommandsWithReply : Prop :=
  ∀ (s : State) (i : Instr) (frame : List Byte) (n : Nat), s.busy = false →
    ((i = .getReady ∧ frame = [0x02, 0x02] ∧ n = 1) ∨ (i = .readMeas ∧ frame = [0x03, 0x00] ∧ n = 6)) →
    (∀ d0 d rest, s.transport = .ok d0 :: .ok d :: rest → Taken s d n →
      CompletesIn (exec i s) (s.after [wrote frame, got (3 * n) d] (replyMismatches d n) rest
        (.ok (.words (replyWords d n))))) ∧
    (∀ d0 d rest m ms, s.transport = .ok d0 :: .ok d :: rest → s.crcPolicy = .strict →
      replyMismatches d n = m :: ms →
      CompletesIn (exec i s) (s.after [wrote frame, got (3 * n) d] [m] rest
        (.err (.checksumMismatch m.computed m.received)))) ∧
    (∀ e rest, s.transport = .fail e :: rest →
      CompletesIn (exec i s) (s.after [writeFailed frame e] [] rest (.err (.busWriteFailed e)))) ∧
    (∀ d0 e rest, s.transport = .ok d0 :: .fail e :: rest →
      CompletesIn (exec i s) (s.after [wrote frame, readFailed (3 * n) e] [] rest (.err (.busReadFailed e)))) ∧
    (s.transport = [] → CompletesIn (exec i s) (s.stuckAfter [writePending frame] [])) ∧
    (∀ d0, s.transport = [.ok d0] → CompletesIn (exec i s) (s.stuckAfter [wrote frame, readPending (3 * n)] []))

/-- EXEC writes the frame of the command's identifier and payload, and when the command has a reply reads
exactly that many groups; a command without reply makes no read (R114). It never aborts, and it neither reads
nor writes CONT. Where the transport never answers there is no outcome (the form of the hang is the model's, log 5). -/
def Obligations.ExecMeaning : Prop :=
  ∀ (s : State) (cmd : Command) (frame : List Byte), s.busy = false →
    ((payload cmd = none ∧ frame = [hi8 (commandId cmd), lo8 (commandId cmd)]) ∨
      (∃ x, payload cmd = some x ∧
        frame = [hi8 (commandId cmd), lo8 (commandId cmd), hi8 x, lo8 x, crc8 (hi8 x) (lo8 x)])) →
    (∀ d rest, expectedWords cmd = 0 → s.transport = .ok d :: rest →
      CompletesIn (exec (.execCmd cmd) s) (s.after [wrote frame] [] rest (.ok .unit))) ∧
    (∀ d0 d rest, expectedWords cmd ≠ 0 → s.transport = .ok d0 :: .ok d :: rest →
      Taken s d (expectedWords cmd) →
      CompletesIn (exec (.execCmd cmd) s) (s.after [wrote frame, got (3 * expectedWords cmd) d]
        (replyMismatches d (expectedWords cmd)) rest (.ok (.words (replyWords d (expectedWords cmd)))))) ∧
    (∀ e rest, s.transport = .fail e :: rest →
      CompletesIn (exec (.execCmd cmd) s) (s.after [writeFailed frame e] [] rest (.err (.busWriteFailed e)))) ∧
    (∀ d0 e rest, expectedWords cmd ≠ 0 → s.transport = .ok d0 :: .fail e :: rest →
      CompletesIn (exec (.execCmd cmd) s) (s.after [wrote frame, readFailed (3 * expectedWords cmd) e] [] rest
        (.err (.busReadFailed e)))) ∧
    (∀ d0 d rest m ms, s.transport = .ok d0 :: .ok d :: rest → s.crcPolicy = .strict →
      expectedWords cmd ≠ 0 → replyMismatches d (expectedWords cmd) = m :: ms →
      CompletesIn (exec (.execCmd cmd) s) (s.after [wrote frame, got (3 * expectedWords cmd) d] [m] rest
        (.err (.checksumMismatch m.computed m.received)))) ∧
    (s.transport = [] → CompletesIn (exec (.execCmd cmd) s) (s.stuckAfter [writePending frame] [])) ∧
    (∀ d0, expectedWords cmd ≠ 0 → s.transport = [.ok d0] →
      CompletesIn (exec (.execCmd cmd) s) (s.stuckAfter [wrote frame, readPending (3 * expectedWords cmd)] []))

/-- A command asked for by its own frame means EXEC of that command: the reading the pseudocode of R104 to R113
gives, and the model's choice for requests in frame form (log 1). -/
def Obligations.FrameRequestsMeanExec : Prop :=
  ∀ (x : Word) (b : Bool) (s : State),
    exec .startCont s = exec (.execCmd .startContinuous) s ∧
    exec .stopCont s = exec (.execCmd .stopContinuous) s ∧
    exec (.setInterval x) s = exec (.execCmd (.setContinuousInterval x)) s ∧
    exec .getReady s = exec (.execCmd .getDataReady) s ∧
    exec .readMeas s = exec (.execCmd .readMeasurement) s ∧
    exec (.setAsc b) s = exec (.execCmd (.setAutomaticSelfCalibration b)) s ∧
    exec (.setFrc x) s = exec (.execCmd (.setForcedRecalibration x)) s ∧
    exec (.setToffset x) s = exec (.execCmd (.setTemperatureOffset x)) s ∧
    exec (.setAlt x) s = exec (.execCmd (.setAltitude x)) s ∧
    exec .softReset s = exec (.execCmd .softReset) s

/-- SOFT_RESET is a frame sent to the sensor; it is no reset of the block: whatever the transport answers, the
flag and both records are kept, the history growing by that one write (R173). -/
def Obligations.SoftResetIsNotAReset : Prop :=
  ∀ s t : State, exec .softReset s = .next t →
    t.cont = s.cont ∧ t.diag = s.diag ∧ t.crcPolicy = s.crcPolicy ∧ t.stateGuard = s.stateGuard ∧
    t.inbox = s.inbox ∧ ∃ r, t.hist = s.hist ++ [.write 0x61 [0xD3, 0x04] r]

/-! ## Device Driver -/

/-- OPEN with a period in 2..=1800 writes the interval frame, then the start frame, and sets CONT (R122). -/
def Obligations.OpenCompletes : Prop :=
  ∀ (s : State) (p : Nat) (d0 d1 : Delivery) (rest : List (Answer Delivery)),
    s.busy = false → GuardPasses s false → 2 ≤ p → p ≤ 1800 → s.transport = .ok d0 :: .ok d1 :: rest →
    CompletesIn (exec (.openDriver p) s)
      { s.after
          [wrote [0x46, 0x00, BitVec.ofNat 8 (p / 256), BitVec.ofNat 8 (p % 256),
             crc8 (BitVec.ofNat 8 (p / 256)) (BitVec.ofNat 8 (p % 256))],
           wrote [0x00, 0x10, 0x00, 0x00, 0x81]] [] rest (.ok .unit) with cont := true }

/-- OPEN compares the period as a number, before any truncation: outside 2..=1800 it is InvalidConfiguration
with that period, whatever its low 16 bits, and never a frame; nothing else changes (R123). -/
def Obligations.OpenRejectsPeriod : Prop :=
  ∀ (s : State) (p : Nat), s.busy = false → GuardPasses s false → (p < 2 ∨ 1800 < p) →
    exec (.openDriver p) s =
      .next { s with results := s.results ++ [.err (.invalidConfiguration (.periodOutOfRange p))] }

/-- A failed OPEN undoes nothing (R124): a failure of the first frame ends it before the second; a failure of the
second leaves CONT as it was with the interval frame sent and no compensating frame; a new OPEN sends both frames
again. An OPEN whose first or second frame the transport never answers has no outcome, and CONT is as it was (R148,
R154; the form of the hang is the model's, log 5). -/
def Obligations.FailedOpenUndoesNothing : Prop :=
  ∀ (s : State) (p : Nat) (frame start : List Byte),
    s.busy = false → GuardPasses s false → 2 ≤ p → p ≤ 1800 →
    frame = [0x46, 0x00, hi8 (BitVec.ofNat 16 p), lo8 (BitVec.ofNat 16 p),
      crc8 (hi8 (BitVec.ofNat 16 p)) (lo8 (BitVec.ofNat 16 p))] →
    start = [0x00, 0x10, 0x00, 0x00, 0x81] →
    (∀ e rest, s.transport = .fail e :: rest →
      CompletesIn (exec (.openDriver p) s) (s.after [writeFailed frame e] [] rest (.err (.busWriteFailed e)))) ∧
    (∀ d e rest, s.transport = .ok d :: .fail e :: rest →
      ∃ t, exec (.openDriver p) s = .next t ∧
        t.visible = (s.after [wrote frame, writeFailed start e] [] rest (.err (.busWriteFailed e))).visible ∧
        (∀ d0 d1 rest', rest = .ok d0 :: .ok d1 :: rest' →
          CompletesIn (exec (.openDriver p) t)
            { t.after [wrote frame, wrote start] [] rest' (.ok .unit) with cont := true })) ∧
    (s.transport = [] → CompletesIn (exec (.openDriver p) s) (s.stuckAfter [writePending frame] [])) ∧
    (∀ d, s.transport = [.ok d] →
      CompletesIn (exec (.openDriver p) s) (s.stuckAfter [wrote frame, writePending start] []))

/-- SAMPLE when the ready word is 1 and both replies are taken: the measurement command, six words, and the
three 32-bit values in document order from the data bytes of the six groups, high half first; the checksum
bytes do not enter the values, and CONT is unchanged (R125, R128). -/
def Obligations.SampleReady : Prop :=
  ∀ (s : State) (d0 d1 d2 d3 : Delivery) (rest : List (Answer Delivery)),
    s.busy = false → GuardPasses s true → s.transport = .ok d0 :: .ok d1 :: .ok d2 :: .ok d3 :: rest →
    Taken s d1 1 → Taken s d3 6 → byteAt d1 0 = 0x00 → byteAt d1 1 = 0x01 →
    CompletesIn (exec .sampleDriver s)
      (s.after [wrote [0x02, 0x02], got 3 d1, wrote [0x03, 0x00], got 18 d3]
        (replyMismatches d1 1 ++ replyMismatches d3 6) rest
        (.ok (.sample
          { co2 := byteAt d3 0 ++ byteAt d3 1 ++ byteAt d3 3 ++ byteAt d3 4
            temperature := byteAt d3 6 ++ byteAt d3 7 ++ byteAt d3 9 ++ byteAt d3 10
            humidity := byteAt d3 12 ++ byteAt d3 13 ++ byteAt d3 15 ++ byteAt d3 16 })))

/-- The ready test is equality of the whole word with `0x0001` (R126): any other word gives NotReady after one
write and one read, the state otherwise unchanged; under the permissive policy the word counts as read even
when its checksum did not match. -/
def Obligations.SampleNotReady : Prop :=
  ∀ (s : State) (d0 d1 : Delivery) (rest : List (Answer Delivery)),
    s.busy = false → GuardPasses s true → s.transport = .ok d0 :: .ok d1 :: rest → Taken s d1 1 →
    ¬(byteAt d1 0 = 0x00 ∧ byteAt d1 1 = 0x01) →
    CompletesIn (exec .sampleDriver s)
      (s.after [wrote [0x02, 0x02], got 3 d1] (replyMismatches d1 1) rest (.err .notReady))

/-- The errors of SAMPLE's first command end it there: the first write, the first read, and under the strict
policy the ready word's checksum (R125, R149). Where its write or its read is never answered SAMPLE has no outcome
(R148, R154; the form of the hang is the model's, log 5). -/
def Obligations.SampleFirstCommandErrors : Prop :=
  ∀ s : State, s.busy = false → GuardPasses s true →
    (∀ e rest, s.transport = .fail e :: rest →
      CompletesIn (exec .sampleDriver s) (s.after [writeFailed [0x02, 0x02] e] [] rest (.err (.busWriteFailed e)))) ∧
    (∀ d0 e rest, s.transport = .ok d0 :: .fail e :: rest →
      CompletesIn (exec .sampleDriver s)
        (s.after [wrote [0x02, 0x02], readFailed 3 e] [] rest (.err (.busReadFailed e)))) ∧
    (∀ d0 d1 rest m ms, s.transport = .ok d0 :: .ok d1 :: rest → s.crcPolicy = .strict →
      replyMismatches d1 1 = m :: ms →
      CompletesIn (exec .sampleDriver s)
        (s.after [wrote [0x02, 0x02], got 3 d1] [m] rest (.err (.checksumMismatch m.computed m.received)))) ∧
    (s.transport = [] → CompletesIn (exec .sampleDriver s) (s.stuckAfter [writePending [0x02, 0x02]] [])) ∧
    (∀ d0, s.transport = [.ok d0] →
      CompletesIn (exec .sampleDriver s) (s.stuckAfter [wrote [0x02, 0x02], readPending 3] []))

/-- The errors of SAMPLE's second command, after a ready word of 1, abandon the measurement: the second write, the
second read, and under the strict policy the first mismatch of the measurement (R125, R127). Where that write or that
read is never answered SAMPLE has no outcome (R148, R154; the form of the hang is the model's, log 5). -/
def Obligations.SampleSecondCommandErrors : Prop :=
  ∀ (s : State) (d0 d1 : Delivery), s.busy = false → GuardPasses s true → Taken s d1 1 →
    byteAt d1 0 = 0x00 → byteAt d1 1 = 0x01 →
    (∀ e rest, s.transport = .ok d0 :: .ok d1 :: .fail e :: rest →
      CompletesIn (exec .sampleDriver s)
        (s.after [wrote [0x02, 0x02], got 3 d1, writeFailed [0x03, 0x00] e] (replyMismatches d1 1) rest
          (.err (.busWriteFailed e)))) ∧
    (∀ d2 e rest, s.transport = .ok d0 :: .ok d1 :: .ok d2 :: .fail e :: rest →
      CompletesIn (exec .sampleDriver s)
        (s.after [wrote [0x02, 0x02], got 3 d1, wrote [0x03, 0x00], readFailed 18 e] (replyMismatches d1 1) rest
          (.err (.busReadFailed e)))) ∧
    (∀ d2 d3 rest m ms, s.transport = .ok d0 :: .ok d1 :: .ok d2 :: .ok d3 :: rest → s.crcPolicy = .strict →
      replyMismatches d3 6 = m :: ms →
      CompletesIn (exec .sampleDriver s)
        (s.after [wrote [0x02, 0x02], got 3 d1, wrote [0x03, 0x00], got 18 d3] [m] rest
          (.err (.checksumMismatch m.computed m.received)))) ∧
    (s.transport = [.ok d0, .ok d1] →
      CompletesIn (exec .sampleDriver s)
        (s.stuckAfter [wrote [0x02, 0x02], got 3 d1, writePending [0x03, 0x00]] (replyMismatches d1 1))) ∧
    (∀ d2, s.transport = [.ok d0, .ok d1, .ok d2] →
      CompletesIn (exec .sampleDriver s)
        (s.stuckAfter [wrote [0x02, 0x02], got 3 d1, wrote [0x03, 0x00], readPending 18] (replyMismatches d1 1)))

/-- STOP writes `01 04` and clears CONT when the write succeeds (R130). Where the write is never answered STOP has no
outcome, and CONT is as it was (R148, R154; the form of the hang is the model's, log 5). -/
def Obligations.StopCompletes : Prop :=
  ∀ s : State, s.busy = false → GuardPasses s true →
    (∀ d rest, s.transport = .ok d :: rest →
      CompletesIn (exec .stopDriver s)
        { s.after [wrote [0x01, 0x04]] [] rest (.ok .unit) with cont := false }) ∧
    (s.transport = [] → CompletesIn (exec .stopDriver s) (s.stuckAfter [writePending [0x01, 0x04]] []))

/-- A failed STOP changes nothing: CONT stays as it was (set, where the guard lets STOP through by CONT), the error is
returned, SAMPLE and STOP remain available, and a retry sends `01 04` again (R131). -/
def Obligations.FailedStopChangesNothing : Prop :=
  ∀ (s : State) (e : Config.TransportError) (rest : List (Answer Delivery)),
    s.busy = false → GuardPasses s true → s.transport = .fail e :: rest →
    ∃ t, exec .stopDriver s = .next t ∧
      t.visible = (s.after [writeFailed [0x01, 0x04] e] [] rest (.err (.busWriteFailed e))).visible ∧
      (∀ d rest', rest = .ok d :: rest' →
        CompletesIn (exec .stopDriver t)
          { t.after [wrote [0x01, 0x04]] [] rest' (.ok .unit) with cont := false }) ∧
      exec .sampleDriver t ≠ .refused .wrongDriverState ∧ exec .stopDriver t ≠ .refused .wrongDriverState

/-- The state guard (R121). Under `refuse`, OPEN with CONT = 1 and SAMPLE or STOP with CONT = 0 are refused.
Under `unchecked` no operation reads CONT: no request is refused for the driver state, and two blocks that
differ in CONT alone make the same transactions and return the same outcomes. -/
def Obligations.StateGuardMeaning : Prop :=
  (∀ (s : State) (p : Nat), s.busy = false → s.stateGuard = .refuse →
    (s.cont = true → exec (.openDriver p) s = .refused .wrongDriverState) ∧
    (s.cont = false → exec .sampleDriver s = .refused .wrongDriverState ∧
      exec .stopDriver s = .refused .wrongDriverState)) ∧
  (∀ (s : State) (i : Instr), s.stateGuard = .unchecked →
    exec i s ≠ .refused .wrongDriverState ∧
    ∀ (b : Bool) (t : State), exec i s = .next t →
      ∃ t', exec i { s with cont := b } = .next t' ∧ { t with cont := b } = { t' with cont := b })

/-! ## Whole-machine rules -/

/-- CONT is mutated only by a successful OPEN, which sets it, and a successful STOP, which clears it: no other
transition exists (R15, R16). -/
def Obligations.ContChangesOnlyByOpenAndStop : Prop :=
  ∀ (i : Instr) (s t : State), exec i s = .next t →
    t.cont = s.cont ∨
    ((∃ p, i = .openDriver p) ∧ t.cont = true ∧ t.results = s.results ++ [.ok .unit]) ∨
    (i = .stopDriver ∧ t.cont = false ∧ t.results = s.results ++ [.ok .unit])

/-- An operation that returns an error leaves CONT as it found it, keeps the transactions made and the entries
logged, and leaves the block idle for the next request (R150, R152). -/
def Obligations.ErrorsLeaveTheFlag : Prop :=
  ∀ (i : Instr) (s t : State) (x : Error), exec i s = .next t → t.results = s.results ++ [.err x] →
    t.cont = s.cont ∧ t.busy = false ∧ s.hist <+: t.hist ∧ s.diag <+: t.diag

/-- Every operation of an idle block ends in exactly one way (R140): it returns one outcome and the block is
idle; or it never ends, returns none and the block stays busy (the form of the hang is the model's, log 5); or it is
refused. -/
def Obligations.EveryOperationEndsOnce : Prop :=
  ∀ (i : Instr) (s : State), s.busy = false →
    (∃ t o, exec i s = .next t ∧ t.busy = false ∧ t.results = s.results ++ [o]) ∨
    (∃ t, exec i s = .next t ∧ t.busy = true ∧ t.results = s.results) ∨
    (∃ r, exec i s = .refused r)

/-- The table of R148, as far as returned outcomes and hangs go: each operation returns only outcomes of its row,
ChecksumMismatch from READ, EXEC and SAMPLE only under the strict policy, and the checksum operations always
end. That an operation which never ends is a next state with the block busy is the model's form (log 5). -/
def Obligations.OutcomesOfEachOperation : Prop :=
  ∀ (i : Instr) (s t : State), exec i s = .next t →
    (∃ o, t.results = s.results ++ [o] ∧ mayReturn (s.crcPolicy == .strict) i o = true) ∨
    (t.results = s.results ∧ t.busy = true ∧ traffic i ≠ [])

/-- The refusals of R148: an idle block refuses only a READ whose count is outside 1..=6, and, under
STATE_GUARD = refuse, an OPEN with CONT = 1 or a SAMPLE or STOP with CONT = 0. -/
def Obligations.RefusalsOfEachOperation : Prop :=
  ∀ (i : Instr) (s : State) (r : Refusal), s.busy = false → exec i s = .refused r →
    (r = .preconditionViolation ∧ ∃ n, i = .read n ∧ (n < 1 ∨ 6 < n)) ∨
    (r = .wrongDriverState ∧ s.stateGuard = .refuse ∧
      ((s.cont = true ∧ ∃ p, i = .openDriver p) ∨ (s.cont = false ∧ (i = .sampleDriver ∨ i = .stopDriver))))

/-- Reading a cell of TX, RX or W that has not been written is a fault, not a read of zero; and no operation does
so: no step ends in a fault (R26). -/
def Obligations.NoOperationReadsUnwrittenScratch : Prop :=
  (∀ (s : State) (i : Nat), s.rx.length ≤ i → readRx i s = .fault .unwrittenScratch) ∧
  (∀ s : State, s.tx.length < s.txLen → readTx s = .fault .unwrittenScratch) ∧
  (∀ s : State, s.w.length < s.wLen → readW s = .fault .unwrittenScratch) ∧
  (∀ (s : State) (f : Fault), step s ≠ .fault f)

/-- A bus error is the transport's answer to the operation's last transaction, its value unmodified: the outcome
is BusWriteFailed(e) exactly when that was a write answered fail(e) (R142), BusReadFailed(e) exactly when it
was a read answered fail(e) (R143). -/
def Obligations.BusErrorsAreTheLastAnswer : Prop :=
  ∀ (i : Instr) (s t : State) (e : Config.TransportError), exec i s = .next t →
    (t.results = s.results ++ [.err (.busWriteFailed e)] ↔
      ∃ evs a bytes, t.hist = s.hist ++ evs ++ [.write a bytes (.fail e)]) ∧
    (t.results = s.results ++ [.err (.busReadFailed e)] ↔
      ∃ evs a n, t.hist = s.hist ++ evs ++ [.read a n (.fail e)])

/-- The transactions of each operation are those R40 and R134 list, in order, all to `0x61`, up to the first that
is not answered ok, which is the last. An operation that returns `Ok` made all of them, each answered ok. One that
made fewer ends with a transaction not answered ok, or is a SAMPLE whose first reply ended it: NotReady, or under the
strict policy a mismatch (R126, R90). -/
def Obligations.TrafficOfEachOperation : Prop :=
  ∀ (i : Instr) (s t : State), exec i s = .next t →
    ∃ evs, t.hist = s.hist ++ evs ∧ evs.map BusEvent.transaction <+: traffic i ∧
      (∀ e ∈ evs, e.addr = 0x61) ∧ (∀ e ∈ evs.dropLast, e.succeeded = true) ∧
      (∀ v, t.results = s.results ++ [.ok v] →
        evs.map BusEvent.transaction = traffic i ∧ ∀ e ∈ evs, e.succeeded = true) ∧
      (evs.map BusEvent.transaction = traffic i ∨
        (∃ e, evs.getLast? = some e ∧ e.succeeded = false) ∨
        (i = .sampleDriver ∧ evs.map BusEvent.transaction = [.write [0x02, 0x02], .read 3] ∧
          ∃ x, t.results = s.results ++ [.err x] ∧
            (x = .notReady ∨ s.crcPolicy = .strict ∧ ∃ k c, x = .checksumMismatch k c)))

/-- No operation reads DIAG, HIST or the outcomes returned before (R19, R20, R22): from states that differ in
them alone the same entries, events and outcome are appended. -/
def Obligations.NoOperationReadsTheRecords : Prop :=
  ∀ (i : Instr) (s t : State) (diag : List DiagEntry) (hist : List BusEvent) (results : List Returned),
    exec i s = .next t →
    ∃ ms evs os, t.diag = s.diag ++ ms ∧ t.hist = s.hist ++ evs ∧ t.results = s.results ++ os ∧
      exec i { s with diag := diag, hist := hist, results := results } =
        .next { t with diag := diag ++ ms, hist := hist ++ evs, results := results ++ os }

/-- An operation writes neither the open parameters nor what the host has still to issue, and takes one answer of
the transport for each transaction that has one (R7, R33, R34). -/
def Obligations.OneAnswerForEachTransaction : Prop :=
  ∀ (i : Instr) (s t : State), exec i s = .next t →
    t.crcPolicy = s.crcPolicy ∧ t.stateGuard = s.stateGuard ∧ t.inbox = s.inbox ∧
    t.transport = s.transport.drop ((t.hist.drop s.hist.length).filter BusEvent.hasAnswer).length

/-- The buffers belong to their operations (R13, R14, R21, R79): SEND, every command without reply, asked for by EXEC or
by its frame, OPEN and STOP make no READ (R40) and leave RX and W alone; READ leaves TX alone; the checksum operations
leave all three alone. -/
def Obligations.ScratchBelongsToItsOperation : Prop :=
  (∀ (id : Word) (data : Option Word) (s t : State), exec (.send id data) s = .next t →
    t.rx = s.rx ∧ t.rxLen = s.rxLen ∧ t.w = s.w ∧ t.wLen = s.wLen) ∧
  (∀ (n : Nat) (s t : State), exec (.read n) s = .next t → t.tx = s.tx ∧ t.txLen = s.txLen) ∧
  (∀ (cmd : Command) (s t : State), expectedWords cmd = 0 → exec (.execCmd cmd) s = .next t →
    t.rx = s.rx ∧ t.rxLen = s.rxLen ∧ t.w = s.w ∧ t.wLen = s.wLen) ∧
  (∀ (p : Nat) (x : Word) (b : Bool) (i : Instr) (s t : State),
    i = .openDriver p ∨ i = .stopDriver ∨ i = .startCont ∨ i = .stopCont ∨ i = .setInterval x ∨
      i = .setAsc b ∨ i = .setFrc x ∨ i = .setToffset x ∨ i = .setAlt x ∨ i = .softReset →
    exec i s = .next t → t.rx = s.rx ∧ t.rxLen = s.rxLen ∧ t.w = s.w ∧ t.wLen = s.wLen) ∧
  (∀ (b0 b1 c : Byte) (w : Word) (i : Instr) (s t : State),
    i = .crc8 b0 b1 ∨ i = .addChk w ∨ i = .verChk b0 b1 c → exec i s = .next t →
    t.visible = { s.visible with results := t.results } ∧ t.tx = s.tx ∧ t.txLen = s.txLen ∧
      t.rx = s.rx ∧ t.rxLen = s.rxLen ∧ t.w = s.w ∧ t.wLen = s.wLen)

/-! ## The invariant -/

/-- The state after reset meets the invariant. -/
def Obligations.ResetMeetsTheInvariant : Prop := State.reset.Inv

/-- Every step keeps the invariant (`State.Inv`): the history is in order with at most its last event pending,
and pending exactly when the block is busy (R36, R44); every event is a frame of format S or L written to
`0x61` or a read of whole groups from it (R30, R34, R50); DIAG holds mismatches only (R19); the buffers stay
in bounds (R95) and hold nothing between operations (R13, R14). -/
def Obligations.StepKeepsTheInvariant : Prop :=
  ∀ s t : State, s.Inv → step s = .next t → t.Inv
end

