-- ==== Sys2Proof/Laws/Checksum.lean ====
section
/-! SUPPORT. The checksum as a linear map over xor: what the laws of spec/40_checksum.md R78 rest on. -/

namespace Sys2Proof.Machine

/-- A shift step is linear over xor. -/
theorem crcShift_xor (a b : Byte) : crcShift (a ^^^ b) = crcShift a ^^^ crcShift b := by
  unfold crcShift
  rw [BitVec.getLsbD_xor]
  by_cases ha : a.getLsbD 7 <;> by_cases hb : b.getLsbD 7 <;> simp only [ha, hb] <;> ext i hi <;> simp <;>
    grind

theorem crcShifts_xor (n : Nat) (a b : Byte) : crcShifts n (a ^^^ b) = crcShifts n a ^^^ crcShifts n b := by
  induction n generalizing a b with
  | zero => rfl
  | succ n ih => rw [crcShifts, crcShift_xor, ih]; rfl

/-- R73's table is linear over xor. -/
theorem crcTable_xor (a b : Byte) : crcTable (a ^^^ b) = crcTable a ^^^ crcTable b := crcShifts_xor _ a b

theorem crcTable_zero : crcTable 0 = 0 := by decide

theorem crcTable_eq_zero : ∀ x : Byte, crcTable x = 0 → x = 0 := by decide +kernel

/-- "`T` is a bijection on bytes" (V9). -/
theorem crcTable_injective {x y : Byte} (h : crcTable x = crcTable y) : x = y := by
  have hz : crcTable (x ^^^ y) = 0 := by rw [crcTable_xor, h, BitVec.xor_self]; rfl
  exact BitVec.xor_eq_zero_iff.mp (crcTable_eq_zero _ hz)

/-- One byte of the checksum is one look-up. -/
theorem crcByte_eq_table (c b : Byte) : crcByte c b = crcTable (c ^^^ b) := rfl

end Sys2Proof.Machine
end

