-- ==== Sys2Proof/Laws/Operands.lean ====
section
/-! SUPPORT. Operand forms: words and 32-bit values as concatenations, natural number operands as digits. -/

namespace Sys2Proof.Machine

/-- `be16` is concatenation, the high byte first. -/
theorem be16_eq_append (b0 b1 : Byte) : be16 b0 b1 = b0 ++ b1 := by
  ext i hi
  rw [BitVec.getElem_append]
  by_cases h : i < 8
  · simp [be16, h]
  · have h8 : i - 8 < 8 := by omega
    simp [be16, h, BitVec.getLsbD_of_ge b1 i (by omega), BitVec.getLsbD_eq_getElem h8]

/-- `be32` is concatenation, the high half first. -/
theorem be32_eq_append (w0 w1 : Word) : be32 w0 w1 = w0 ++ w1 := by
  ext i hi
  rw [BitVec.getElem_append]
  by_cases h : i < 16
  · simp [be32, h]
  · have h16 : i - 16 < 16 := by omega
    simp [be32, h, BitVec.getLsbD_of_ge w1 i (by omega), BitVec.getLsbD_eq_getElem h16]

theorem natOfBytes_append (bs : List Byte) (b : Byte) :
    natOfBytes (bs ++ [b]) = natOfBytes bs * 256 + b.toNat := by
  simp [natOfBytes]

theorem natOfBytes_natDigits (fuel n : Nat) (h : n < 256 ^ fuel) : natOfBytes (natDigits fuel n) = n := by
  induction fuel generalizing n with
  | zero =>
    have h0 : n = 0 := by simpa using h
    subst h0
    rfl
  | succ f ih =>
    rw [natDigits]
    split
    · next h => simp [natOfBytes, Nat.mod_eq_of_lt h]
    · rw [natOfBytes_append, ih _ (by rw [Nat.pow_succ] at h; omega)]
      simp
      omega

/-- The fuel of `natBytes` is enough for every number. -/
theorem natBytes_fuel (n : Nat) : n < 256 ^ (n.log2 / 8 + 1) := by
  calc n < 2 ^ (n.log2 + 1) := Nat.lt_log2_self
    _ ≤ 2 ^ (8 * (n.log2 / 8 + 1)) := Nat.pow_le_pow_right (by omega) (by omega)
    _ = 256 ^ (n.log2 / 8 + 1) := by rw [Nat.pow_mul]

theorem natOfBytes_natBytes (n : Nat) : natOfBytes (natBytes n) = n :=
  natOfBytes_natDigits _ _ (natBytes_fuel n)

/-- The digits of a number start with a non-zero byte unless there is only one. -/
theorem natDigits_head (fuel n : Nat) (h : n < 256 ^ fuel) (hf : 0 < fuel) :
    ∃ b bs, natDigits fuel n = b :: bs ∧ (bs ≠ [] → b ≠ 0) := by
  induction fuel generalizing n with
  | zero => omega
  | succ f ih =>
    rw [natDigits]
    split
    · exact ⟨_, [], rfl, by simp⟩
    · next h256 =>
      have hlt : n / 256 < 256 ^ f := by rw [Nat.pow_succ] at h; omega
      have hf : 0 < f := by
        rcases f with _ | f
        · simp at hlt; omega
        · omega
      obtain ⟨b, bs, he, hb⟩ := ih (n / 256) hlt hf
      refine ⟨b, bs ++ [BitVec.ofNat 8 (n % 256)], by rw [he]; rfl, fun _ => ?_⟩
      rcases bs with _ | ⟨b', bs⟩
      · have hv := natOfBytes_natDigits f (n / 256) hlt
        rw [he] at hv
        rintro rfl
        simp [natOfBytes] at hv
        omega
      · exact hb (by simp)

/-- A natural number operand decodes to what was encoded. -/
theorem decodeNat_natBytes (sel : Byte) (n : Nat) : decodeNat sel (natBytes n) = .ok n := by
  obtain ⟨b, bs, he, hb⟩ := natDigits_head _ n (natBytes_fuel n) (by omega)
  have hn := natOfBytes_natBytes n
  rw [natBytes] at *
  rw [he] at *
  rcases bs with _ | ⟨b', bs⟩
  · simpa [decodeNat, natOfBytes] using hn
  · rw [decodeNat, if_neg (hb (by simp)), hn]

theorem natOfBytes_pos {b : Byte} (hb : b ≠ 0) (bs : List Byte) : 0 < natOfBytes (b :: bs) := by
  have grows : ∀ (l : List Byte) (a : Nat), a ≤ l.foldl (fun acc b => acc * 256 + b.toNat) a := by
    intro l
    induction l with
    | nil => intro a; simp
    | cons y l ih =>
      intro a
      exact le_trans (show a ≤ a * 256 + y.toNat by omega) (ih _)
  have h1 := grows bs b.toNat
  have h2 : b.toNat ≠ 0 := fun h => hb (BitVec.eq_of_toNat_eq (by simpa using h))
  simp only [natOfBytes, List.foldl_cons, Nat.zero_mul, Nat.zero_add]
  omega

theorem natDigits_natOfBytes {b : Byte} (hb : b ≠ 0) (bs : List Byte) (fuel : Nat)
    (h : natOfBytes (b :: bs) < 256 ^ fuel) : natDigits fuel (natOfBytes (b :: bs)) = b :: bs := by
  induction bs using List.reverseRecOn generalizing fuel with
  | nil =>
    have hp := natOfBytes_pos hb []
    have hlt := b.isLt
    rcases fuel with _ | f
    · rw [Nat.pow_zero] at h; omega
    · have hv : natOfBytes [b] = b.toNat := by simp [natOfBytes]
      rw [natDigits, hv, if_pos (by omega), BitVec.ofNat_toNat, BitVec.setWidth_eq]
  | append_singleton bs x ih =>
    have e : natOfBytes (b :: (bs ++ [x])) = natOfBytes (b :: bs) * 256 + x.toNat :=
      natOfBytes_append (b :: bs) x
    have hx := x.isLt
    have hp := natOfBytes_pos hb bs
    rw [e] at h ⊢
    rcases fuel with _ | f
    · rw [Nat.pow_zero] at h; omega
    · rw [natDigits, if_neg (by omega),
        show (natOfBytes (b :: bs) * 256 + x.toNat) / 256 = natOfBytes (b :: bs) by omega,
        show (natOfBytes (b :: bs) * 256 + x.toNat) % 256 = x.toNat by omega,
        ih f (by rw [Nat.pow_succ] at h; omega)]
      simp

/-- Bytes that decode to a number are that number's encoding. -/
theorem natBytes_of_decodeNat {sel : Byte} {bs : List Byte} {n : Nat} (h : decodeNat sel bs = .ok n) :
    natBytes n = bs := by
  match bs, h with
  | [b], h =>
    simp only [decodeNat, Except.ok.injEq] at h
    subst h
    have hb := b.isLt
    rw [natBytes, natDigits, if_pos (by omega), BitVec.ofNat_toNat, BitVec.setWidth_eq]
  | b :: b' :: bs, h =>
    rw [decodeNat] at h
    split at h
    · cases h
    · next hb =>
      simp only [Except.ok.injEq] at h
      subst h
      exact natDigits_natOfBytes hb (b' :: bs) _ (natBytes_fuel _)

/-- A natural number operand has at least one byte. -/
theorem natBytes_length_pos (n : Nat) : 1 ≤ (natBytes n).length := by
  obtain ⟨b, bs, he, -⟩ := natDigits_head _ n (natBytes_fuel n) (by omega)
  simp [natBytes, he]

end Sys2Proof.Machine
end

