-- ==== Sys2Proof/Laws/State.lean ====
section
/-! SUPPORT. One lemma for each field of State under each update of it. -/

namespace Sys2Proof.Machine

namespace State

variable (s : State)

@[simp] theorem setCont_cont (b : Bool) : (s.setCont b).cont = b := rfl
@[simp] theorem setCont_tx (b : Bool) : (s.setCont b).tx = s.tx := rfl
@[simp] theorem setCont_txLen (b : Bool) : (s.setCont b).txLen = s.txLen := rfl
@[simp] theorem setCont_rx (b : Bool) : (s.setCont b).rx = s.rx := rfl
@[simp] theorem setCont_rxLen (b : Bool) : (s.setCont b).rxLen = s.rxLen := rfl
@[simp] theorem setCont_w (b : Bool) : (s.setCont b).w = s.w := rfl
@[simp] theorem setCont_wLen (b : Bool) : (s.setCont b).wLen = s.wLen := rfl
@[simp] theorem setCont_diag (b : Bool) : (s.setCont b).diag = s.diag := rfl
@[simp] theorem setCont_hist (b : Bool) : (s.setCont b).hist = s.hist := rfl
@[simp] theorem setCont_busy (b : Bool) : (s.setCont b).busy = s.busy := rfl
@[simp] theorem setCont_crcPolicy (b : Bool) : (s.setCont b).crcPolicy = s.crcPolicy := rfl
@[simp] theorem setCont_stateGuard (b : Bool) : (s.setCont b).stateGuard = s.stateGuard := rfl
@[simp] theorem setCont_transport (b : Bool) : (s.setCont b).transport = s.transport := rfl
@[simp] theorem setCont_inbox (b : Bool) : (s.setCont b).inbox = s.inbox := rfl
@[simp] theorem setCont_results (b : Bool) : (s.setCont b).results = s.results := rfl

@[simp] theorem returns_cont (o : Returned) : (s.returns o).cont = s.cont := rfl
@[simp] theorem returns_tx (o : Returned) : (s.returns o).tx = s.tx := rfl
@[simp] theorem returns_txLen (o : Returned) : (s.returns o).txLen = s.txLen := rfl
@[simp] theorem returns_rx (o : Returned) : (s.returns o).rx = s.rx := rfl
@[simp] theorem returns_rxLen (o : Returned) : (s.returns o).rxLen = s.rxLen := rfl
@[simp] theorem returns_w (o : Returned) : (s.returns o).w = s.w := rfl
@[simp] theorem returns_wLen (o : Returned) : (s.returns o).wLen = s.wLen := rfl
@[simp] theorem returns_diag (o : Returned) : (s.returns o).diag = s.diag := rfl
@[simp] theorem returns_hist (o : Returned) : (s.returns o).hist = s.hist := rfl
@[simp] theorem returns_busy (o : Returned) : (s.returns o).busy = s.busy := rfl
@[simp] theorem returns_crcPolicy (o : Returned) : (s.returns o).crcPolicy = s.crcPolicy := rfl
@[simp] theorem returns_stateGuard (o : Returned) : (s.returns o).stateGuard = s.stateGuard := rfl
@[simp] theorem returns_transport (o : Returned) : (s.returns o).transport = s.transport := rfl
@[simp] theorem returns_inbox (o : Returned) : (s.returns o).inbox = s.inbox := rfl
@[simp] theorem returns_results (o : Returned) : (s.returns o).results = s.results ++ [o] := rfl

@[simp] theorem hang_cont : (s.hang).cont = s.cont := rfl
@[simp] theorem hang_tx : (s.hang).tx = s.tx := rfl
@[simp] theorem hang_txLen : (s.hang).txLen = s.txLen := rfl
@[simp] theorem hang_rx : (s.hang).rx = s.rx := rfl
@[simp] theorem hang_rxLen : (s.hang).rxLen = s.rxLen := rfl
@[simp] theorem hang_w : (s.hang).w = s.w := rfl
@[simp] theorem hang_wLen : (s.hang).wLen = s.wLen := rfl
@[simp] theorem hang_diag : (s.hang).diag = s.diag := rfl
@[simp] theorem hang_hist : (s.hang).hist = s.hist := rfl
@[simp] theorem hang_busy : (s.hang).busy = true := rfl
@[simp] theorem hang_crcPolicy : (s.hang).crcPolicy = s.crcPolicy := rfl
@[simp] theorem hang_stateGuard : (s.hang).stateGuard = s.stateGuard := rfl
@[simp] theorem hang_transport : (s.hang).transport = s.transport := rfl
@[simp] theorem hang_inbox : (s.hang).inbox = s.inbox := rfl
@[simp] theorem hang_results : (s.hang).results = s.results := rfl

@[simp] theorem loadTx_cont (f : List Byte) : (s.loadTx f).cont = s.cont := rfl
@[simp] theorem loadTx_tx (f : List Byte) : (s.loadTx f).tx = f := rfl
@[simp] theorem loadTx_txLen (f : List Byte) : (s.loadTx f).txLen = f.length := rfl
@[simp] theorem loadTx_rx (f : List Byte) : (s.loadTx f).rx = s.rx := rfl
@[simp] theorem loadTx_rxLen (f : List Byte) : (s.loadTx f).rxLen = s.rxLen := rfl
@[simp] theorem loadTx_w (f : List Byte) : (s.loadTx f).w = s.w := rfl
@[simp] theorem loadTx_wLen (f : List Byte) : (s.loadTx f).wLen = s.wLen := rfl
@[simp] theorem loadTx_diag (f : List Byte) : (s.loadTx f).diag = s.diag := rfl
@[simp] theorem loadTx_hist (f : List Byte) : (s.loadTx f).hist = s.hist := rfl
@[simp] theorem loadTx_busy (f : List Byte) : (s.loadTx f).busy = s.busy := rfl
@[simp] theorem loadTx_crcPolicy (f : List Byte) : (s.loadTx f).crcPolicy = s.crcPolicy := rfl
@[simp] theorem loadTx_stateGuard (f : List Byte) : (s.loadTx f).stateGuard = s.stateGuard := rfl
@[simp] theorem loadTx_transport (f : List Byte) : (s.loadTx f).transport = s.transport := rfl
@[simp] theorem loadTx_inbox (f : List Byte) : (s.loadTx f).inbox = s.inbox := rfl
@[simp] theorem loadTx_results (f : List Byte) : (s.loadTx f).results = s.results := rfl

@[simp] theorem releaseTx_cont : (s.releaseTx).cont = s.cont := rfl
@[simp] theorem releaseTx_tx : (s.releaseTx).tx = [] := rfl
@[simp] theorem releaseTx_txLen : (s.releaseTx).txLen = 0 := rfl
@[simp] theorem releaseTx_rx : (s.releaseTx).rx = s.rx := rfl
@[simp] theorem releaseTx_rxLen : (s.releaseTx).rxLen = s.rxLen := rfl
@[simp] theorem releaseTx_w : (s.releaseTx).w = s.w := rfl
@[simp] theorem releaseTx_wLen : (s.releaseTx).wLen = s.wLen := rfl
@[simp] theorem releaseTx_diag : (s.releaseTx).diag = s.diag := rfl
@[simp] theorem releaseTx_hist : (s.releaseTx).hist = s.hist := rfl
@[simp] theorem releaseTx_busy : (s.releaseTx).busy = s.busy := rfl
@[simp] theorem releaseTx_crcPolicy : (s.releaseTx).crcPolicy = s.crcPolicy := rfl
@[simp] theorem releaseTx_stateGuard : (s.releaseTx).stateGuard = s.stateGuard := rfl
@[simp] theorem releaseTx_transport : (s.releaseTx).transport = s.transport := rfl
@[simp] theorem releaseTx_inbox : (s.releaseTx).inbox = s.inbox := rfl
@[simp] theorem releaseTx_results : (s.releaseTx).results = s.results := rfl

@[simp] theorem beginRead_cont (n : Nat) : (s.beginRead n).cont = s.cont := rfl
@[simp] theorem beginRead_tx (n : Nat) : (s.beginRead n).tx = s.tx := rfl
@[simp] theorem beginRead_txLen (n : Nat) : (s.beginRead n).txLen = s.txLen := rfl
@[simp] theorem beginRead_rx (n : Nat) : (s.beginRead n).rx = [] := rfl
@[simp] theorem beginRead_rxLen (n : Nat) : (s.beginRead n).rxLen = n := rfl
@[simp] theorem beginRead_w (n : Nat) : (s.beginRead n).w = [] := rfl
@[simp] theorem beginRead_wLen (n : Nat) : (s.beginRead n).wLen = 0 := rfl
@[simp] theorem beginRead_diag (n : Nat) : (s.beginRead n).diag = s.diag := rfl
@[simp] theorem beginRead_hist (n : Nat) : (s.beginRead n).hist = s.hist := rfl
@[simp] theorem beginRead_busy (n : Nat) : (s.beginRead n).busy = s.busy := rfl
@[simp] theorem beginRead_crcPolicy (n : Nat) : (s.beginRead n).crcPolicy = s.crcPolicy := rfl
@[simp] theorem beginRead_stateGuard (n : Nat) : (s.beginRead n).stateGuard = s.stateGuard := rfl
@[simp] theorem beginRead_transport (n : Nat) : (s.beginRead n).transport = s.transport := rfl
@[simp] theorem beginRead_inbox (n : Nat) : (s.beginRead n).inbox = s.inbox := rfl
@[simp] theorem beginRead_results (n : Nat) : (s.beginRead n).results = s.results := rfl

@[simp] theorem loadRx_cont (bs : List Byte) : (s.loadRx bs).cont = s.cont := rfl
@[simp] theorem loadRx_tx (bs : List Byte) : (s.loadRx bs).tx = s.tx := rfl
@[simp] theorem loadRx_txLen (bs : List Byte) : (s.loadRx bs).txLen = s.txLen := rfl
@[simp] theorem loadRx_rx (bs : List Byte) : (s.loadRx bs).rx = bs := rfl
@[simp] theorem loadRx_rxLen (bs : List Byte) : (s.loadRx bs).rxLen = s.rxLen := rfl
@[simp] theorem loadRx_w (bs : List Byte) : (s.loadRx bs).w = s.w := rfl
@[simp] theorem loadRx_wLen (bs : List Byte) : (s.loadRx bs).wLen = s.wLen := rfl
@[simp] theorem loadRx_diag (bs : List Byte) : (s.loadRx bs).diag = s.diag := rfl
@[simp] theorem loadRx_hist (bs : List Byte) : (s.loadRx bs).hist = s.hist := rfl
@[simp] theorem loadRx_busy (bs : List Byte) : (s.loadRx bs).busy = s.busy := rfl
@[simp] theorem loadRx_crcPolicy (bs : List Byte) : (s.loadRx bs).crcPolicy = s.crcPolicy := rfl
@[simp] theorem loadRx_stateGuard (bs : List Byte) : (s.loadRx bs).stateGuard = s.stateGuard := rfl
@[simp] theorem loadRx_transport (bs : List Byte) : (s.loadRx bs).transport = s.transport := rfl
@[simp] theorem loadRx_inbox (bs : List Byte) : (s.loadRx bs).inbox = s.inbox := rfl
@[simp] theorem loadRx_results (bs : List Byte) : (s.loadRx bs).results = s.results := rfl

@[simp] theorem releaseRx_cont : (s.releaseRx).cont = s.cont := rfl
@[simp] theorem releaseRx_tx : (s.releaseRx).tx = s.tx := rfl
@[simp] theorem releaseRx_txLen : (s.releaseRx).txLen = s.txLen := rfl
@[simp] theorem releaseRx_rx : (s.releaseRx).rx = [] := rfl
@[simp] theorem releaseRx_rxLen : (s.releaseRx).rxLen = 0 := rfl
@[simp] theorem releaseRx_w : (s.releaseRx).w = [] := rfl
@[simp] theorem releaseRx_wLen : (s.releaseRx).wLen = 0 := rfl
@[simp] theorem releaseRx_diag : (s.releaseRx).diag = s.diag := rfl
@[simp] theorem releaseRx_hist : (s.releaseRx).hist = s.hist := rfl
@[simp] theorem releaseRx_busy : (s.releaseRx).busy = s.busy := rfl
@[simp] theorem releaseRx_crcPolicy : (s.releaseRx).crcPolicy = s.crcPolicy := rfl
@[simp] theorem releaseRx_stateGuard : (s.releaseRx).stateGuard = s.stateGuard := rfl
@[simp] theorem releaseRx_transport : (s.releaseRx).transport = s.transport := rfl
@[simp] theorem releaseRx_inbox : (s.releaseRx).inbox = s.inbox := rfl
@[simp] theorem releaseRx_results : (s.releaseRx).results = s.results := rfl

@[simp] theorem pushW_cont (v : Word) : (s.pushW v).cont = s.cont := rfl
@[simp] theorem pushW_tx (v : Word) : (s.pushW v).tx = s.tx := rfl
@[simp] theorem pushW_txLen (v : Word) : (s.pushW v).txLen = s.txLen := rfl
@[simp] theorem pushW_rx (v : Word) : (s.pushW v).rx = s.rx := rfl
@[simp] theorem pushW_rxLen (v : Word) : (s.pushW v).rxLen = s.rxLen := rfl
@[simp] theorem pushW_w (v : Word) : (s.pushW v).w = s.w ++ [v] := rfl
@[simp] theorem pushW_wLen (v : Word) : (s.pushW v).wLen = s.wLen := rfl
@[simp] theorem pushW_diag (v : Word) : (s.pushW v).diag = s.diag := rfl
@[simp] theorem pushW_hist (v : Word) : (s.pushW v).hist = s.hist := rfl
@[simp] theorem pushW_busy (v : Word) : (s.pushW v).busy = s.busy := rfl
@[simp] theorem pushW_crcPolicy (v : Word) : (s.pushW v).crcPolicy = s.crcPolicy := rfl
@[simp] theorem pushW_stateGuard (v : Word) : (s.pushW v).stateGuard = s.stateGuard := rfl
@[simp] theorem pushW_transport (v : Word) : (s.pushW v).transport = s.transport := rfl
@[simp] theorem pushW_inbox (v : Word) : (s.pushW v).inbox = s.inbox := rfl
@[simp] theorem pushW_results (v : Word) : (s.pushW v).results = s.results := rfl

@[simp] theorem setWLen_cont (n : Nat) : (s.setWLen n).cont = s.cont := rfl
@[simp] theorem setWLen_tx (n : Nat) : (s.setWLen n).tx = s.tx := rfl
@[simp] theorem setWLen_txLen (n : Nat) : (s.setWLen n).txLen = s.txLen := rfl
@[simp] theorem setWLen_rx (n : Nat) : (s.setWLen n).rx = s.rx := rfl
@[simp] theorem setWLen_rxLen (n : Nat) : (s.setWLen n).rxLen = s.rxLen := rfl
@[simp] theorem setWLen_w (n : Nat) : (s.setWLen n).w = s.w := rfl
@[simp] theorem setWLen_wLen (n : Nat) : (s.setWLen n).wLen = n := rfl
@[simp] theorem setWLen_diag (n : Nat) : (s.setWLen n).diag = s.diag := rfl
@[simp] theorem setWLen_hist (n : Nat) : (s.setWLen n).hist = s.hist := rfl
@[simp] theorem setWLen_busy (n : Nat) : (s.setWLen n).busy = s.busy := rfl
@[simp] theorem setWLen_crcPolicy (n : Nat) : (s.setWLen n).crcPolicy = s.crcPolicy := rfl
@[simp] theorem setWLen_stateGuard (n : Nat) : (s.setWLen n).stateGuard = s.stateGuard := rfl
@[simp] theorem setWLen_transport (n : Nat) : (s.setWLen n).transport = s.transport := rfl
@[simp] theorem setWLen_inbox (n : Nat) : (s.setWLen n).inbox = s.inbox := rfl
@[simp] theorem setWLen_results (n : Nat) : (s.setWLen n).results = s.results := rfl

@[simp] theorem log_cont (c r : Byte) : (s.log c r).cont = s.cont := rfl
@[simp] theorem log_tx (c r : Byte) : (s.log c r).tx = s.tx := rfl
@[simp] theorem log_txLen (c r : Byte) : (s.log c r).txLen = s.txLen := rfl
@[simp] theorem log_rx (c r : Byte) : (s.log c r).rx = s.rx := rfl
@[simp] theorem log_rxLen (c r : Byte) : (s.log c r).rxLen = s.rxLen := rfl
@[simp] theorem log_w (c r : Byte) : (s.log c r).w = s.w := rfl
@[simp] theorem log_wLen (c r : Byte) : (s.log c r).wLen = s.wLen := rfl
@[simp] theorem log_diag (c r : Byte) : (s.log c r).diag = s.diag ++ [⟨c, r⟩] := rfl
@[simp] theorem log_hist (c r : Byte) : (s.log c r).hist = s.hist := rfl
@[simp] theorem log_busy (c r : Byte) : (s.log c r).busy = s.busy := rfl
@[simp] theorem log_crcPolicy (c r : Byte) : (s.log c r).crcPolicy = s.crcPolicy := rfl
@[simp] theorem log_stateGuard (c r : Byte) : (s.log c r).stateGuard = s.stateGuard := rfl
@[simp] theorem log_transport (c r : Byte) : (s.log c r).transport = s.transport := rfl
@[simp] theorem log_inbox (c r : Byte) : (s.log c r).inbox = s.inbox := rfl
@[simp] theorem log_results (c r : Byte) : (s.log c r).results = s.results := rfl

@[simp] theorem record_cont (e : BusEvent) : (s.record e).cont = s.cont := rfl
@[simp] theorem record_tx (e : BusEvent) : (s.record e).tx = s.tx := rfl
@[simp] theorem record_txLen (e : BusEvent) : (s.record e).txLen = s.txLen := rfl
@[simp] theorem record_rx (e : BusEvent) : (s.record e).rx = s.rx := rfl
@[simp] theorem record_rxLen (e : BusEvent) : (s.record e).rxLen = s.rxLen := rfl
@[simp] theorem record_w (e : BusEvent) : (s.record e).w = s.w := rfl
@[simp] theorem record_wLen (e : BusEvent) : (s.record e).wLen = s.wLen := rfl
@[simp] theorem record_diag (e : BusEvent) : (s.record e).diag = s.diag := rfl
@[simp] theorem record_hist (e : BusEvent) : (s.record e).hist = s.hist ++ [e] := rfl
@[simp] theorem record_busy (e : BusEvent) : (s.record e).busy = s.busy := rfl
@[simp] theorem record_crcPolicy (e : BusEvent) : (s.record e).crcPolicy = s.crcPolicy := rfl
@[simp] theorem record_stateGuard (e : BusEvent) : (s.record e).stateGuard = s.stateGuard := rfl
@[simp] theorem record_transport (e : BusEvent) : (s.record e).transport = s.transport := rfl
@[simp] theorem record_inbox (e : BusEvent) : (s.record e).inbox = s.inbox := rfl
@[simp] theorem record_results (e : BusEvent) : (s.record e).results = s.results := rfl

@[simp] theorem answered_cont (rest : List (Answer Delivery)) : (s.answered rest).cont = s.cont := rfl
@[simp] theorem answered_tx (rest : List (Answer Delivery)) : (s.answered rest).tx = s.tx := rfl
@[simp] theorem answered_txLen (rest : List (Answer Delivery)) : (s.answered rest).txLen = s.txLen := rfl
@[simp] theorem answered_rx (rest : List (Answer Delivery)) : (s.answered rest).rx = s.rx := rfl
@[simp] theorem answered_rxLen (rest : List (Answer Delivery)) : (s.answered rest).rxLen = s.rxLen := rfl
@[simp] theorem answered_w (rest : List (Answer Delivery)) : (s.answered rest).w = s.w := rfl
@[simp] theorem answered_wLen (rest : List (Answer Delivery)) : (s.answered rest).wLen = s.wLen := rfl
@[simp] theorem answered_diag (rest : List (Answer Delivery)) : (s.answered rest).diag = s.diag := rfl
@[simp] theorem answered_hist (rest : List (Answer Delivery)) : (s.answered rest).hist = s.hist := rfl
@[simp] theorem answered_busy (rest : List (Answer Delivery)) : (s.answered rest).busy = s.busy := rfl
@[simp] theorem answered_crcPolicy (rest : List (Answer Delivery)) : (s.answered rest).crcPolicy = s.crcPolicy := rfl
@[simp] theorem answered_stateGuard (rest : List (Answer Delivery)) : (s.answered rest).stateGuard = s.stateGuard := rfl
@[simp] theorem answered_transport (rest : List (Answer Delivery)) : (s.answered rest).transport = rest := rfl
@[simp] theorem answered_inbox (rest : List (Answer Delivery)) : (s.answered rest).inbox = s.inbox := rfl
@[simp] theorem answered_results (rest : List (Answer Delivery)) : (s.answered rest).results = s.results := rfl

@[simp] theorem offer_cont (r : Request) : (s.offer r).cont = s.cont := rfl
@[simp] theorem offer_tx (r : Request) : (s.offer r).tx = s.tx := rfl
@[simp] theorem offer_txLen (r : Request) : (s.offer r).txLen = s.txLen := rfl
@[simp] theorem offer_rx (r : Request) : (s.offer r).rx = s.rx := rfl
@[simp] theorem offer_rxLen (r : Request) : (s.offer r).rxLen = s.rxLen := rfl
@[simp] theorem offer_w (r : Request) : (s.offer r).w = s.w := rfl
@[simp] theorem offer_wLen (r : Request) : (s.offer r).wLen = s.wLen := rfl
@[simp] theorem offer_diag (r : Request) : (s.offer r).diag = s.diag := rfl
@[simp] theorem offer_hist (r : Request) : (s.offer r).hist = s.hist := rfl
@[simp] theorem offer_busy (r : Request) : (s.offer r).busy = s.busy := rfl
@[simp] theorem offer_crcPolicy (r : Request) : (s.offer r).crcPolicy = s.crcPolicy := rfl
@[simp] theorem offer_stateGuard (r : Request) : (s.offer r).stateGuard = s.stateGuard := rfl
@[simp] theorem offer_transport (r : Request) : (s.offer r).transport = s.transport := rfl
@[simp] theorem offer_inbox (r : Request) : (s.offer r).inbox = .request r :: s.inbox := rfl
@[simp] theorem offer_results (r : Request) : (s.offer r).results = s.results := rfl

@[simp] theorem visible_cont : (s.visible).cont = s.cont := rfl
@[simp] theorem visible_tx : (s.visible).tx = [] := rfl
@[simp] theorem visible_txLen : (s.visible).txLen = 0 := rfl
@[simp] theorem visible_rx : (s.visible).rx = [] := rfl
@[simp] theorem visible_rxLen : (s.visible).rxLen = 0 := rfl
@[simp] theorem visible_w : (s.visible).w = [] := rfl
@[simp] theorem visible_wLen : (s.visible).wLen = 0 := rfl
@[simp] theorem visible_diag : (s.visible).diag = s.diag := rfl
@[simp] theorem visible_hist : (s.visible).hist = s.hist := rfl
@[simp] theorem visible_busy : (s.visible).busy = s.busy := rfl
@[simp] theorem visible_crcPolicy : (s.visible).crcPolicy = s.crcPolicy := rfl
@[simp] theorem visible_stateGuard : (s.visible).stateGuard = s.stateGuard := rfl
@[simp] theorem visible_transport : (s.visible).transport = s.transport := rfl
@[simp] theorem visible_inbox : (s.visible).inbox = s.inbox := rfl
@[simp] theorem visible_results : (s.visible).results = s.results := rfl

/-- Taking the visible part twice is taking it once. -/
@[simp] theorem visible_visible : s.visible.visible = s.visible := rfl

end State

end Sys2Proof.Machine
end

