-- ==== Sys2Proof/Laws/Ops.lean ====
section
/-! SUPPORT. What each shared operation can do, said once: the ends of SEND, READ and EXEC for every answer of the
transport. -/

namespace Sys2Proof.Machine

/-! ## Sequencing -/

section Bind

variable {α β : Type} (k : α → State → Ends β)

@[simp] theorem Ends.bind_ok (v : α) (s : State) : (Ends.ok v s).bind k = k v s := rfl
@[simp] theorem Ends.bind_err (x : Error) (s : State) : (Ends.err x s : Ends α).bind k = .err x s := rfl
@[simp] theorem Ends.bind_never (s : State) : (Ends.never s : Ends α).bind k = .never s := rfl
@[simp] theorem Ends.bind_refuse (r : Refusal) : (Ends.refuse r : Ends α).bind k = .refuse r := rfl
@[simp] theorem Ends.bind_fault (f : Fault) : (Ends.fault f : Ends α).bind k = .fault f := rfl

end Bind

/-! ## How an operation ends -/

@[simp] theorem finish_ok (v : Value) (s : State) : finish (.ok v s) = .next (s.returns (.ok v)) := rfl
@[simp] theorem finish_err (x : Error) (s : State) : finish (.err x s) = .next (s.returns (.err x)) := rfl
@[simp] theorem finish_never (s : State) : finish (.never s) = .next s.hang := rfl
@[simp] theorem finish_refuse (r : Refusal) : finish (.refuse r) = .refused r := rfl
@[simp] theorem finish_fault (f : Fault) : finish (.fault f) = .fault f := rfl

theorem runOp_busy {s : State} (h : s.busy = true) (body : State → Ends Value) :
    runOp s body = .refused .requestWhileBusy := by
  simp [runOp, h]

theorem runOp_idle {s : State} (h : s.busy = false) (body : State → Ends Value) :
    runOp s body = finish (body s) := by
  simp [runOp, h]

/-! ## SEND -/

theorem readTx_loadTx (s : State) (f : List Byte) : readTx (s.loadTx f) = .ok f (s.loadTx f) := by
  simp [readTx]

/-- The state in which SEND waits for a transport that never answers. -/
def sendWaiting (id : Word) (data : Option Word) (s : State) : State :=
  (s.loadTx (frameOf id data)).record (.write Config.devAddr (frameOf id data) .pending)

/-- The state after a SEND whose write the transport answered with `r`. -/
def sendDone (id : Word) (data : Option Word) (r : BusResult Unit) (rest : List (Answer Delivery))
    (s : State) : State :=
  ((s.answered rest).record (.write Config.devAddr (frameOf id data) r)).releaseTx

theorem sendFrame_silent {s : State} (h : s.transport = []) (id : Word) (data : Option Word) :
    sendFrame id data s = .never (sendWaiting id data s) := by
  simp [sendFrame, readTx_loadTx, busWrite, h, sendWaiting]

theorem sendFrame_ok {s : State} {d : Delivery} {rest : List (Answer Delivery)}
    (h : s.transport = .ok d :: rest) (id : Word) (data : Option Word) :
    sendFrame id data s = .ok () (sendDone id data (.ok ()) rest s) := by
  simp [sendFrame, readTx_loadTx, busWrite, h]
  rfl

theorem sendFrame_fail {s : State} {e : Config.TransportError} {rest : List (Answer Delivery)}
    (h : s.transport = .fail e :: rest) (id : Word) (data : Option Word) :
    sendFrame id data s = .err (.busWriteFailed e) (sendDone id data (.fail e) rest s) := by
  simp [sendFrame, readTx_loadTx, busWrite, h]
  rfl

/-! ## READ -/

theorem delivered_getElem? (d : Delivery) {n i : Nat} (hi : i < n) (hn : n ≤ 18) :
    (delivered d n)[i]? = some (byteAt d i) := by
  have hlen : i < d.toList.length := by simp; omega
  rw [delivered, List.getElem?_take_of_lt hi, byteAt, List.getD_eq_getElem?_getD,
    List.getElem?_eq_getElem hlen, Option.getD_some]

theorem delivered_length (d : Delivery) {n : Nat} (hn : n ≤ 18) : (delivered d n).length = n := by
  simp [delivered]; omega

theorem wordsFrom_length (d : Delivery) (k i : Nat) : (wordsFrom d k i).length = k := by
  induction k generalizing i with
  | zero => rfl
  | succ k ih => simp [wordsFrom, ih]

theorem replyWords_length (d : Delivery) (n : Nat) : (replyWords d n).length = n :=
  wordsFrom_length d n 0

/-- A mismatch entry holds two different values. -/
theorem mismatchesFrom_differ (d : Delivery) (k i : Nat) :
    ∀ m ∈ mismatchesFrom d k i, m.computed ≠ m.received := by
  induction k generalizing i with
  | zero => simp [mismatchesFrom]
  | succ k ih =>
    intro m hm
    simp only [mismatchesFrom] at hm
    split at hm
    · exact ih _ m hm
    · next h =>
      rcases List.mem_cons.mp hm with rfl | hm
      · exact h
      · exact ih _ m hm

/-- The words of a reply, group by group. -/
theorem wordsFrom_eq_map (d : Delivery) (k i : Nat) :
    wordsFrom d k i = (List.range k).map fun j => groupWord d (i + j) := by
  induction k generalizing i with
  | zero => rfl
  | succ k ih =>
    rw [wordsFrom, ih, List.range_succ_eq_map, List.map_cons, List.map_map]
    refine congrArg₂ _ rfl (List.map_congr_left fun j _ => ?_)
    simp only [Function.comp_apply]
    congr 1; omega

/-- The mismatches of a reply, group by group. -/
theorem mismatchesFrom_eq_filterMap (d : Delivery) (k i : Nat) :
    mismatchesFrom d k i = (List.range k).filterMap fun j =>
      if crc8 (byteAt d (3 * (i + j))) (byteAt d (3 * (i + j) + 1)) = byteAt d (3 * (i + j) + 2) then none
      else some ⟨crc8 (byteAt d (3 * (i + j))) (byteAt d (3 * (i + j) + 1)), byteAt d (3 * (i + j) + 2)⟩ := by
  induction k generalizing i with
  | zero => rfl
  | succ k ih =>
    rw [mismatchesFrom, ih, List.range_succ_eq_map, List.filterMap_cons, List.filterMap_map]
    have hf : (fun j => if crc8 (byteAt d (3 * (i + 1 + j))) (byteAt d (3 * (i + 1 + j) + 1)) = byteAt d (3 * (i + 1 + j) + 2) then none
      else some (⟨crc8 (byteAt d (3 * (i + 1 + j))) (byteAt d (3 * (i + 1 + j) + 1)), byteAt d (3 * (i + 1 + j) + 2)⟩ : DiagEntry)) =
      (fun j => if crc8 (byteAt d (3 * (i + j))) (byteAt d (3 * (i + j) + 1)) = byteAt d (3 * (i + j) + 2) then none
      else some ⟨crc8 (byteAt d (3 * (i + j))) (byteAt d (3 * (i + j) + 1)), byteAt d (3 * (i + j) + 2)⟩) ∘ Nat.succ := by
      funext j
      have : i + 1 + j = i + (j + 1) := by omega
      simp [this]
    rw [hf]
    by_cases h : crc8 (byteAt d (3 * i)) (byteAt d (3 * i + 1)) = byteAt d (3 * i + 2) <;> simp [h]

/-- No group mismatches, no entry. -/
theorem mismatchesFrom_nil (d : Delivery) (k i : Nat)
    (h : ∀ j, i ≤ j → j < i + k → crc8 (byteAt d (3 * j)) (byteAt d (3 * j + 1)) = byteAt d (3 * j + 2)) :
    mismatchesFrom d k i = [] := by
  induction k generalizing i with
  | zero => rfl
  | succ k ih =>
    rw [mismatchesFrom, if_pos (h i (by omega) (by omega))]
    exact ih _ fun j h1 h2 => h j (by omega) (by omega)

/-- The first entry is that of the lowest-numbered mismatching group. -/
theorem mismatchesFrom_first (d : Delivery) (k i j : Nat) (hi : i ≤ j) (hj : j < i + k)
    (hb : ∀ l, i ≤ l → l < j → crc8 (byteAt d (3 * l)) (byteAt d (3 * l + 1)) = byteAt d (3 * l + 2))
    (hm : crc8 (byteAt d (3 * j)) (byteAt d (3 * j + 1)) ≠ byteAt d (3 * j + 2)) :
    ∃ ms, mismatchesFrom d k i = ⟨crc8 (byteAt d (3 * j)) (byteAt d (3 * j + 1)), byteAt d (3 * j + 2)⟩ :: ms := by
  induction k generalizing i with
  | zero => omega
  | succ k ih =>
    rcases Nat.eq_or_lt_of_le hi with rfl | hlt
    · rw [mismatchesFrom, if_neg hm]; exact ⟨_, rfl⟩
    · rw [mismatchesFrom, if_pos (hb i (by omega) hlt)]
      exact ih (i + 1) (by omega) (by omega) fun l h1 h2 => hb l (by omega) h2

/-- READ's bytes are those of `d`, at least up to group `n`. -/
def Holds (s : State) (d : Delivery) (n : Nat) : Prop := n ≤ 6 ∧ s.rx = delivered d (3 * n)

theorem readRx_holds {s : State} {d : Delivery} {n i : Nat} (h : Holds s d n) (hi : i < 3 * n) :
    readRx i s = .ok (byteAt d i) s := by
  obtain ⟨hn, hrx⟩ := h
  simp [readRx, hrx, delivered_getElem? d hi (by omega)]

theorem readGroup_match {s : State} {d : Delivery} {n i : Nat} (h : Holds s d n) (hi : i < n)
    (hc : crc8 (byteAt d (3 * i)) (byteAt d (3 * i + 1)) = byteAt d (3 * i + 2)) :
    readGroup i s = .ok () (s.pushW (groupWord d i)) := by
  simp [readGroup, readRx_holds h (show 3 * i < 3 * n by omega),
    readRx_holds h (show 3 * i + 1 < 3 * n by omega),
    readRx_holds h (show 3 * i + 2 < 3 * n by omega), hc, groupWord]

theorem readGroup_permissive {s : State} {d : Delivery} {n i : Nat} (h : Holds s d n) (hi : i < n)
    (hc : crc8 (byteAt d (3 * i)) (byteAt d (3 * i + 1)) ≠ byteAt d (3 * i + 2))
    (hp : s.crcPolicy = .permissive) :
    readGroup i s = .ok ()
      ((s.log (crc8 (byteAt d (3 * i)) (byteAt d (3 * i + 1))) (byteAt d (3 * i + 2))).pushW (groupWord d i)) := by
  simp [readGroup, readRx_holds h (show 3 * i < 3 * n by omega),
    readRx_holds h (show 3 * i + 1 < 3 * n by omega),
    readRx_holds h (show 3 * i + 2 < 3 * n by omega), hc, hp, groupWord]

theorem readGroup_strict {s : State} {d : Delivery} {n i : Nat} (h : Holds s d n) (hi : i < n)
    (hc : crc8 (byteAt d (3 * i)) (byteAt d (3 * i + 1)) ≠ byteAt d (3 * i + 2))
    (hp : s.crcPolicy = .strict) :
    readGroup i s =
      .err (.checksumMismatch (crc8 (byteAt d (3 * i)) (byteAt d (3 * i + 1))) (byteAt d (3 * i + 2)))
        (s.log (crc8 (byteAt d (3 * i)) (byteAt d (3 * i + 1))) (byteAt d (3 * i + 2))).releaseRx := by
  simp [readGroup, readRx_holds h (show 3 * i < 3 * n by omega),
    readRx_holds h (show 3 * i + 1 < 3 * n by omega),
    readRx_holds h (show 3 * i + 2 < 3 * n by omega), hc, hp]

/-- The groups are read to the end when the policy is permissive or there is no mismatch: every
mismatch is logged and every word is taken (R90). -/
theorem readGroups_complete {d : Delivery} {n : Nat} (k i : Nat) {s : State} (h : Holds s d n)
    (hk : i + k ≤ n) (hp : s.crcPolicy = .permissive ∨ mismatchesFrom d k i = []) :
    readGroups k i s =
      .ok () { s with diag := s.diag ++ mismatchesFrom d k i, w := s.w ++ wordsFrom d k i } := by
  induction k generalizing i s with
  | zero => simp [readGroups, mismatchesFrom, wordsFrom]
  | succ k ih =>
    by_cases hc : crc8 (byteAt d (3 * i)) (byteAt d (3 * i + 1)) = byteAt d (3 * i + 2)
    · have hp' : (s.pushW (groupWord d i)).crcPolicy = .permissive ∨ mismatchesFrom d k (i + 1) = [] := by
        simpa [mismatchesFrom, hc] using hp
      have hh : Holds (s.pushW (groupWord d i)) d n := h
      simp only [readGroups, readGroup_match h (by omega) hc, Ends.bind_ok]
      rw [ih (i + 1) hh (by omega) hp']
      simp [mismatchesFrom, wordsFrom, hc, State.pushW]
    · have hperm : s.crcPolicy = .permissive := by simpa [mismatchesFrom, hc] using hp
      have hh : Holds ((s.log (crc8 (byteAt d (3 * i)) (byteAt d (3 * i + 1)))
          (byteAt d (3 * i + 2))).pushW (groupWord d i)) d n := h
      simp only [readGroups, readGroup_permissive h (by omega) hc hperm, Ends.bind_ok]
      rw [ih (i + 1) hh (by omega) (.inl hperm)]
      simp [mismatchesFrom, wordsFrom, hc, State.pushW, State.log]

/-- Under the strict policy the first mismatch is logged and ends the READ (R90). -/
theorem readGroups_mismatch {d : Delivery} {n : Nat} (k i : Nat) {s : State} {m : DiagEntry}
    {ms : List DiagEntry} (h : Holds s d n) (hk : i + k ≤ n) (hp : s.crcPolicy = .strict)
    (hm : mismatchesFrom d k i = m :: ms) :
    readGroups k i s =
      .err (.checksumMismatch m.computed m.received) (s.log m.computed m.received).releaseRx := by
  induction k generalizing i s with
  | zero => simp [mismatchesFrom] at hm
  | succ k ih =>
    by_cases hc : crc8 (byteAt d (3 * i)) (byteAt d (3 * i + 1)) = byteAt d (3 * i + 2)
    · have hh : Holds (s.pushW (groupWord d i)) d n := h
      simp only [mismatchesFrom, hc, if_true] at hm
      simp only [readGroups, readGroup_match h (by omega) hc, Ends.bind_ok]
      rw [ih (i + 1) hh (by omega) hp hm]
      rfl
    · simp only [mismatchesFrom, hc, if_false, List.cons.injEq] at hm
      obtain ⟨rfl, -⟩ := hm
      simp [readGroups, readGroup_strict h (by omega) hc hp]

/-- The state in which READ waits for a transport that never answers. -/
def readWaiting (n : Nat) (s : State) : State :=
  (s.beginRead (3 * n)).record (.read Config.devAddr (3 * n) .pending)

/-- The state after a READ whose bus read the transport answered with `r`, `ms` being logged. -/
def readDone (n : Nat) (r : BusResult (List Byte)) (ms : List DiagEntry)
    (rest : List (Answer Delivery)) (s : State) : State :=
  let s' := ((s.answered rest).record (.read Config.devAddr (3 * n) r)).releaseRx
  { s' with diag := s'.diag ++ ms }

theorem busRead_ok {s : State} {d : Delivery} {rest : List (Answer Delivery)}
    (h : s.transport = .ok d :: rest) (a : BusAddr) (n : Nat) :
    busRead a n s = .ok (.ok (delivered d n)) ((s.answered rest).record (.read a n (.ok (delivered d n)))) := by
  rw [busRead, h]
  rfl

theorem readReply_refused (n : Nat) (hn : n < 1 ∨ 6 < n) (s : State) :
    readReply n s = .refuse .preconditionViolation := by
  have h : n < Config.minWords ∨ Config.maxWords < n := hn
  rw [readReply, if_pos h]

theorem readReply_silent {s : State} {n : Nat} (hn : 1 ≤ n ∧ n ≤ 6) (h : s.transport = []) :
    readReply n s = .never (readWaiting n s) := by
  have hn' : ¬(n < Config.minWords ∨ Config.maxWords < n) := by simp [Config.minWords, Config.maxWords]; omega
  simp [readReply, hn', busRead, h, readWaiting, Config.groupBytes]

theorem readReply_fail {s : State} {n : Nat} {e : Config.TransportError} {rest : List (Answer Delivery)}
    (hn : 1 ≤ n ∧ n ≤ 6) (h : s.transport = .fail e :: rest) :
    readReply n s = .err (.busReadFailed e) (readDone n (.fail e) [] rest s) := by
  have hn' : ¬(n < Config.minWords ∨ Config.maxWords < n) := by simp [Config.minWords, Config.maxWords]; omega
  simp [readReply, hn', busRead, h, readDone, Config.groupBytes]
  rfl

/-- The state in which READ has its bytes and has examined no group yet. -/
def readLoaded (n : Nat) (d : Delivery) (rest : List (Answer Delivery)) (s : State) : State :=
  (((s.beginRead (3 * n)).answered rest).record
    (.read Config.devAddr (3 * n) (.ok (delivered d (3 * n))))).loadRx (delivered d (3 * n))

theorem readReply_loaded {s : State} {n : Nat} {d : Delivery} {rest : List (Answer Delivery)}
    (hn : 1 ≤ n ∧ n ≤ 6) (h : s.transport = .ok d :: rest) :
    readReply n s = (readGroups n 0 (readLoaded n d rest s)).bind fun _ s =>
      (readW (s.setWLen n)).bind fun words s => .ok words s.releaseRx := by
  have hn' : ¬(n < Config.minWords ∨ Config.maxWords < n) := by simp [Config.minWords, Config.maxWords]; omega
  have hb := busRead_ok (s := s.beginRead (3 * n)) h Config.devAddr (3 * n)
  rw [readReply, if_neg hn', Config.groupBytes, hb]
  rfl

theorem readLoaded_holds {n : Nat} (hn : n ≤ 6) (d : Delivery) (rest : List (Answer Delivery)) (s : State) :
    Holds (readLoaded n d rest s) d n := ⟨hn, rfl⟩

theorem readReply_complete {s : State} {n : Nat} {d : Delivery} {rest : List (Answer Delivery)}
    (hn : 1 ≤ n ∧ n ≤ 6) (h : s.transport = .ok d :: rest)
    (hp : s.crcPolicy = .permissive ∨ replyMismatches d n = []) :
    readReply n s =
      .ok (replyWords d n) (readDone n (.ok (delivered d (3 * n))) (replyMismatches d n) rest s) := by
  rw [readReply_loaded hn h, readGroups_complete n 0 (readLoaded_holds hn.2 d rest s) (by omega) hp]
  simp [readW, readLoaded, State.setWLen, State.beginRead, State.loadRx, State.record, State.answered,
    wordsFrom_length, State.releaseRx, readDone, replyWords, replyMismatches]

theorem readReply_mismatch {s : State} {n : Nat} {d : Delivery} {rest : List (Answer Delivery)}
    {m : DiagEntry} {ms : List DiagEntry} (hn : 1 ≤ n ∧ n ≤ 6) (h : s.transport = .ok d :: rest)
    (hp : s.crcPolicy = .strict) (hm : replyMismatches d n = m :: ms) :
    readReply n s = .err (.checksumMismatch m.computed m.received)
      (readDone n (.ok (delivered d (3 * n))) [m] rest s) := by
  rw [readReply_loaded hn h, readGroups_mismatch n 0 (readLoaded_holds hn.2 d rest s) (by omega) hp hm]
  rfl

/-! ## Inversion: everything SEND and READ can do -/

/-- Everything SEND can do. -/
theorem sendFrame_cases (id : Word) (data : Option Word) (s : State) :
    (s.transport = [] ∧ sendFrame id data s = .never (sendWaiting id data s)) ∨
    (∃ d rest, s.transport = .ok d :: rest ∧
      sendFrame id data s = .ok () (sendDone id data (.ok ()) rest s)) ∨
    (∃ e rest, s.transport = .fail e :: rest ∧
      sendFrame id data s = .err (.busWriteFailed e) (sendDone id data (.fail e) rest s)) := by
  match h : s.transport with
  | [] => exact .inl ⟨rfl, sendFrame_silent h id data⟩
  | .ok d :: rest => exact .inr (.inl ⟨d, rest, rfl, sendFrame_ok h id data⟩)
  | .fail e :: rest => exact .inr (.inr ⟨e, rest, rfl, sendFrame_fail h id data⟩)

/-- Everything READ can do. -/
theorem readReply_cases (n : Nat) (s : State) :
    ((n < 1 ∨ 6 < n) ∧ readReply n s = .refuse .preconditionViolation) ∨
    ((1 ≤ n ∧ n ≤ 6) ∧
      ((s.transport = [] ∧ readReply n s = .never (readWaiting n s)) ∨
      (∃ e rest, s.transport = .fail e :: rest ∧
        readReply n s = .err (.busReadFailed e) (readDone n (.fail e) [] rest s)) ∨
      (∃ d rest, s.transport = .ok d :: rest ∧ (s.crcPolicy = .permissive ∨ replyMismatches d n = []) ∧
        readReply n s =
          .ok (replyWords d n) (readDone n (.ok (delivered d (3 * n))) (replyMismatches d n) rest s)) ∨
      (∃ d rest m ms, s.transport = .ok d :: rest ∧ s.crcPolicy = .strict ∧ replyMismatches d n = m :: ms ∧
        readReply n s = .err (.checksumMismatch m.computed m.received)
          (readDone n (.ok (delivered d (3 * n))) [m] rest s)))) := by
  by_cases hn : 1 ≤ n ∧ n ≤ 6
  · refine .inr ⟨hn, ?_⟩
    match h : s.transport with
    | [] => exact .inl ⟨rfl, readReply_silent hn h⟩
    | .fail e :: rest => exact .inr (.inl ⟨e, rest, rfl, readReply_fail hn h⟩)
    | .ok d :: rest =>
      match hp : s.crcPolicy, hm : replyMismatches d n with
      | .permissive, _ => exact .inr (.inr (.inl ⟨d, rest, rfl, .inl rfl, by rw [readReply_complete hn h (.inl hp), hm]⟩))
      | .strict, [] => exact .inr (.inr (.inl ⟨d, rest, rfl, .inr hm, by rw [readReply_complete hn h (.inr hm), hm]⟩))
      | .strict, m :: ms =>
        exact .inr (.inr (.inr ⟨d, rest, m, ms, rfl, rfl, hm, readReply_mismatch hn h hp hm⟩))
  · have hn' : n < 1 ∨ 6 < n := by omega
    exact .inl ⟨hn', readReply_refused n hn' s⟩

/-! ## EXEC -/

/-- The count of a command with a reply is legal: EXEC never aborts (R114). -/
theorem expectedWords_legal {cmd : Command} (h : expectedWords cmd ≠ 0) :
    1 ≤ expectedWords cmd ∧ expectedWords cmd ≤ 6 := by
  cases cmd <;> simp_all [expectedWords]

theorem issue_eq (cmd : Command) (s : State) :
    issue cmd s = (sendFrame (commandId cmd) (payload cmd) s).bind fun _ s =>
      if expectedWords cmd = 0 then .ok [] s else readReply (expectedWords cmd) s := rfl

/-- A command without reply whose frame is written. -/
theorem issue_written {cmd : Command} {s : State} {d : Delivery} {rest : List (Answer Delivery)}
    (hw : expectedWords cmd = 0) (h : s.transport = .ok d :: rest) :
    issue cmd s = .ok [] (sendDone (commandId cmd) (payload cmd) (.ok ()) rest s) := by
  simp [issue, sendFrame_ok h, hw]

/-- A command with a reply whose frame is written goes on to read it. -/
theorem issue_reading {cmd : Command} {s : State} {d : Delivery} {rest : List (Answer Delivery)}
    (hw : expectedWords cmd ≠ 0) (h : s.transport = .ok d :: rest) :
    issue cmd s = readReply (expectedWords cmd) (sendDone (commandId cmd) (payload cmd) (.ok ()) rest s) := by
  simp [issue, sendFrame_ok h, hw]

/-- A command with a reply that is taken whole. -/
theorem issue_taken {cmd : Command} {s : State} {d0 d : Delivery} {rest : List (Answer Delivery)}
    (hw : expectedWords cmd ≠ 0) (h : s.transport = .ok d0 :: .ok d :: rest) (hp : Taken s d (expectedWords cmd)) :
    issue cmd s = .ok (replyWords d (expectedWords cmd))
      (readDone (expectedWords cmd) (.ok (delivered d (3 * expectedWords cmd)))
        (replyMismatches d (expectedWords cmd)) rest
        (sendDone (commandId cmd) (payload cmd) (.ok ()) (.ok d :: rest) s)) := by
  rw [issue_reading hw h]
  exact readReply_complete (expectedWords_legal hw) rfl hp

/-- A command whose reply has a mismatch under the strict policy. -/
theorem issue_mismatch {cmd : Command} {s : State} {d0 d : Delivery} {rest : List (Answer Delivery)}
    {m : DiagEntry} {ms : List DiagEntry} (hw : expectedWords cmd ≠ 0)
    (h : s.transport = .ok d0 :: .ok d :: rest) (hp : s.crcPolicy = .strict)
    (hm : replyMismatches d (expectedWords cmd) = m :: ms) :
    issue cmd s = .err (.checksumMismatch m.computed m.received)
      (readDone (expectedWords cmd) (.ok (delivered d (3 * expectedWords cmd))) [m] rest
        (sendDone (commandId cmd) (payload cmd) (.ok ()) (.ok d :: rest) s)) := by
  rw [issue_reading hw h]
  exact readReply_mismatch (expectedWords_legal hw) rfl hp hm

/-- A command whose frame is written and whose reply the transport fails. -/
theorem issue_readFail {cmd : Command} {s : State} {d0 : Delivery} {e : Config.TransportError}
    {rest : List (Answer Delivery)} (hw : expectedWords cmd ≠ 0) (h : s.transport = .ok d0 :: .fail e :: rest) :
    issue cmd s = .err (.busReadFailed e)
      (readDone (expectedWords cmd) (.fail e) [] rest
        (sendDone (commandId cmd) (payload cmd) (.ok ()) (.fail e :: rest) s)) := by
  rw [issue_reading hw h]
  exact readReply_fail (expectedWords_legal hw) rfl

/-- A command whose frame is written and whose reply never comes. -/
theorem issue_readSilent {cmd : Command} {s : State} {d0 : Delivery}
    (hw : expectedWords cmd ≠ 0) (h : s.transport = [.ok d0]) :
    issue cmd s = .never
      (readWaiting (expectedWords cmd) (sendDone (commandId cmd) (payload cmd) (.ok ()) [] s)) := by
  rw [issue_reading hw h]
  exact readReply_silent (expectedWords_legal hw) rfl

theorem issue_fail {cmd : Command} {s : State} {e : Config.TransportError} {rest : List (Answer Delivery)}
    (h : s.transport = .fail e :: rest) :
    issue cmd s = .err (.busWriteFailed e) (sendDone (commandId cmd) (payload cmd) (.fail e) rest s) := by
  simp [issue, sendFrame_fail h]

theorem issue_silent {cmd : Command} {s : State} (h : s.transport = []) :
    issue cmd s = .never (sendWaiting (commandId cmd) (payload cmd) s) := by
  simp [issue, sendFrame_silent h]

/-- Everything EXEC can do. -/
theorem issue_cases (cmd : Command) (s : State) :
    (s.transport = [] ∧ issue cmd s = .never (sendWaiting (commandId cmd) (payload cmd) s)) ∨
    (∃ e rest, s.transport = .fail e :: rest ∧
      issue cmd s = .err (.busWriteFailed e) (sendDone (commandId cmd) (payload cmd) (.fail e) rest s)) ∨
    (expectedWords cmd = 0 ∧ ∃ d rest, s.transport = .ok d :: rest ∧
      issue cmd s = .ok [] (sendDone (commandId cmd) (payload cmd) (.ok ()) rest s)) ∨
    (expectedWords cmd ≠ 0 ∧
      ((∃ d0, s.transport = [.ok d0] ∧
        issue cmd s = .never
          (readWaiting (expectedWords cmd) (sendDone (commandId cmd) (payload cmd) (.ok ()) [] s))) ∨
      (∃ d0 e rest, s.transport = .ok d0 :: .fail e :: rest ∧
        issue cmd s = .err (.busReadFailed e)
          (readDone (expectedWords cmd) (.fail e) [] rest
            (sendDone (commandId cmd) (payload cmd) (.ok ()) (.fail e :: rest) s))) ∨
      (∃ d0 d rest, s.transport = .ok d0 :: .ok d :: rest ∧ Taken s d (expectedWords cmd) ∧
        issue cmd s = .ok (replyWords d (expectedWords cmd))
          (readDone (expectedWords cmd) (.ok (delivered d (3 * expectedWords cmd)))
            (replyMismatches d (expectedWords cmd)) rest
            (sendDone (commandId cmd) (payload cmd) (.ok ()) (.ok d :: rest) s))) ∨
      (∃ d0 d rest m ms, s.transport = .ok d0 :: .ok d :: rest ∧ s.crcPolicy = .strict ∧
        replyMismatches d (expectedWords cmd) = m :: ms ∧
        issue cmd s = .err (.checksumMismatch m.computed m.received)
          (readDone (expectedWords cmd) (.ok (delivered d (3 * expectedWords cmd))) [m] rest
            (sendDone (commandId cmd) (payload cmd) (.ok ()) (.ok d :: rest) s))))) := by
  by_cases hw : expectedWords cmd = 0
  · match h : s.transport with
    | [] => exact .inl ⟨rfl, issue_silent h⟩
    | .fail e :: rest => exact .inr (.inl ⟨e, rest, rfl, issue_fail h⟩)
    | .ok d :: rest => exact .inr (.inr (.inl ⟨hw, d, rest, rfl, issue_written hw h⟩))
  · match h : s.transport with
    | [] => exact .inl ⟨rfl, issue_silent h⟩
    | .fail e :: rest => exact .inr (.inl ⟨e, rest, rfl, issue_fail h⟩)
    | [.ok d0] => exact .inr (.inr (.inr ⟨hw, .inl ⟨d0, rfl, issue_readSilent hw h⟩⟩))
    | .ok d0 :: .fail e :: rest =>
      exact .inr (.inr (.inr ⟨hw, .inr (.inl ⟨d0, e, rest, rfl, issue_readFail hw h⟩)⟩))
    | .ok d0 :: .ok d :: rest =>
      refine .inr (.inr (.inr ⟨hw, .inr (.inr ?_)⟩))
      match hp : s.crcPolicy, hm : replyMismatches d (expectedWords cmd) with
      | .permissive, _ =>
        exact .inl ⟨d0, d, rest, rfl, .inl hp, by rw [issue_taken hw h (.inl hp), hm]⟩
      | .strict, [] => exact .inl ⟨d0, d, rest, rfl, .inr hm, by rw [issue_taken hw h (.inr hm), hm]⟩
      | .strict, m :: ms =>
        exact .inr ⟨d0, d, rest, m, ms, rfl, rfl, hm, issue_mismatch hw h hp hm⟩

/-- EXEC returns as many words as the Command Table gives the command. -/
theorem issue_length {cmd : Command} {s t : State} {v : List Word} (h : issue cmd s = .ok v t) :
    v.length = expectedWords cmd := by
  obtain ⟨-, h'⟩ | ⟨_, _, -, h'⟩ | ⟨hw, _, _, -, h'⟩ | ⟨hw, ⟨_, -, h'⟩ | ⟨_, _, _, -, h'⟩ | ⟨_, _, _, -, -, h'⟩ |
    ⟨_, _, _, _, _, -, -, -, h'⟩⟩ := issue_cases cmd s <;> rw [h'] at h <;> cases h
  · exact hw.symm
  · exact replyWords_length _ _

/-- Six words are a Sample. -/
theorem sampleOf_some {m : List Word} (h : m.length = 6) : ∃ x, sampleOf m = some x := by
  match m, h with
  | [_, _, _, _, _, _], _ => exact ⟨_, rfl⟩

end Sys2Proof.Machine
end

