-- ==== Sys2Proof/Laws/PerInstr.lean ====
section
/-! SUPPORT. The families of statements made of every instruction, one lemma for each constructor. -/

namespace Sys2Proof.Laws.EncodeShape

open Sys2Proof Sys2Proof.Machine

/-- The encoded request of an instruction has the shape of its format (R50, R58). -/
def Statement (i : Instr) : Prop := (encode i).wf = true

theorem startCont : Statement .startCont := rfl

theorem stopCont : Statement .stopCont := rfl

theorem setInterval (s : Word) : Statement (.setInterval s) := rfl

theorem getReady : Statement .getReady := rfl

theorem readMeas : Statement .readMeas := rfl

theorem setAsc (b : Bool) : Statement (.setAsc b) := rfl

theorem setFrc (p : Word) : Statement (.setFrc p) := rfl

theorem setToffset (t : Word) : Statement (.setToffset t) := rfl

theorem setAlt (m : Word) : Statement (.setAlt m) := rfl

theorem softReset : Statement .softReset := rfl

theorem crc8 (b0 b1 : Byte) : Statement (.crc8 b0 b1) := rfl

theorem addChk (w : Word) : Statement (.addChk w) := rfl

theorem verChk (b0 b1 c : Byte) : Statement (.verChk b0 b1 c) := rfl

theorem send (id : Word) (data : Option Word) : Statement (.send id data) := by
  cases data <;> rfl

theorem read (n : Nat) : Statement (.read n) := by
  simpa [Statement, encode, hostRequest, Request.wf, operandBytesFit] using natBytes_length_pos n

theorem execCmd (cmd : Command) : Statement (.execCmd cmd) := by
  cases cmd <;> rfl

theorem openDriver (period : Nat) : Statement (.openDriver period) := by
  simpa [Statement, encode, hostRequest, Request.wf, operandBytesFit] using natBytes_length_pos period

theorem sampleDriver : Statement .sampleDriver := rfl

theorem stopDriver : Statement .stopDriver := rfl

end Sys2Proof.Laws.EncodeShape
end

