-- ==== Sys2Proof/Laws/Trace.lean ====
section
/-! SUPPORT. What a sequence of SENDs and READs does to the state, said once and composable: the traffic, the records,
what is left alone (`Runs`); and which parts of the state it does not depend on (`Respects`). -/

namespace Sys2Proof.Machine

/-! ## Events -/

@[simp] theorem hasAnswer_write_ok (a : BusAddr) (v : List Byte) :
    (BusEvent.write a v (.ok ())).hasAnswer = true := rfl
@[simp] theorem hasAnswer_write_fail (a : BusAddr) (v : List Byte) (e : Config.TransportError) :
    (BusEvent.write a v (.fail e)).hasAnswer = true := rfl
@[simp] theorem hasAnswer_read_ok (a : BusAddr) (n : Nat) (v : List Byte) :
    (BusEvent.read a n (.ok v)).hasAnswer = true := rfl
@[simp] theorem hasAnswer_read_fail (a : BusAddr) (n : Nat) (e : Config.TransportError) :
    (BusEvent.read a n (.fail e)).hasAnswer = true := rfl

/-! ## What an operation does -/

/-- From `s` to `t` the transactions `evs` were made and the mismatches `ms` logged; the flag, the
parameters, the host's list and the outcomes are as before; one answer was taken for each transaction
that has one. -/
structure Moved (s t : State) (evs : List BusEvent) (ms : List DiagEntry) : Prop where
  cont : t.cont = s.cont
  busy : t.busy = s.busy
  crcPolicy : t.crcPolicy = s.crcPolicy
  stateGuard : t.stateGuard = s.stateGuard
  inbox : t.inbox = s.inbox
  results : t.results = s.results
  hist : t.hist = s.hist ++ evs
  diag : t.diag = s.diag ++ ms
  transport : t.transport = s.transport.drop (evs.filter BusEvent.hasAnswer).length
  lawful : ∀ e ∈ evs, e.Lawful
  mismatches : ∀ d ∈ ms, d.computed ≠ d.received

theorem Moved.refl (s : State) : Moved s s [] [] := by
  constructor <;> simp

theorem Moved.trans {s t u : State} {evs evs' : List BusEvent} {ms ms' : List DiagEntry}
    (h : Moved s t evs ms) (h' : Moved t u evs' ms') : Moved s u (evs ++ evs') (ms ++ ms') where
  cont := h'.cont.trans h.cont
  busy := h'.busy.trans h.busy
  crcPolicy := h'.crcPolicy.trans h.crcPolicy
  stateGuard := h'.stateGuard.trans h.stateGuard
  inbox := h'.inbox.trans h.inbox
  results := h'.results.trans h.results
  hist := by rw [h'.hist, h.hist, List.append_assoc]
  diag := by rw [h'.diag, h.diag, List.append_assoc]
  transport := by rw [h'.transport, h.transport]; simp [List.drop_drop]
  lawful := fun e he => (List.mem_append.mp he).elim (h.lawful e) (h'.lawful e)
  mismatches := fun d hd => (List.mem_append.mp hd).elim (h.mismatches d) (h'.mismatches d)

/-- No cell of a buffer holds a value. -/
def State.Clean (s : State) : Prop := s.visible = s

/-- The buffers are within their bounds. -/
def State.Bounded (s : State) : Prop :=
  (s.tx.length ≤ 5 ∧ s.txLen = s.tx.length) ∧ (s.rx.length ≤ s.rxLen ∧ s.rxLen ≤ 18) ∧ s.w.length ≤ 6

theorem State.Clean.bounded {s : State} (h : s.Clean) : s.Bounded := by
  rw [← h]; simp [State.Bounded]

/-- What a clean state's buffers are. -/
theorem State.Clean.fields {s : State} (h : s.Clean) :
    (s.tx = [] ∧ s.txLen = 0) ∧ (s.rx = [] ∧ s.rxLen = 0) ∧ s.w = [] ∧ s.wLen = 0 := by
  rw [← h]; simp

/-- The event is the failure `x` tells of. -/
def BusEvent.Failed : BusEvent → Error → Prop
  | .write _ _ (.fail e), x => x = .busWriteFailed e
  | .read _ _ (.fail e), x => x = .busReadFailed e
  | _, _ => False

/-- The Error is not a bus failure. -/
def Error.NotBus : Error → Prop
  | .busWriteFailed _ | .busReadFailed _ => False
  | _ => True

/-- Everything a part of an operation can do whose transactions, when none fails, are `tr`. -/
def Runs {α : Type} (s : State) (tr : List Transaction) : Ends α → Prop
  | .ok _ t => ∃ evs ms, Moved s t evs ms ∧ evs.map BusEvent.transaction = tr ∧
      (∀ e ∈ evs, e.succeeded = true) ∧ (s.Clean → t.Clean)
  | .err x t => ∃ evs ms, Moved s t evs ms ∧ (s.Clean → t.Clean) ∧
      (evs.map BusEvent.transaction <+: tr ∧ (∀ e ∈ evs, e.succeeded = true) ∧ x.NotBus ∨
      ∃ init last, evs = init ++ [last] ∧ evs.map BusEvent.transaction <+: tr ∧
        (∀ e ∈ init, e.succeeded = true) ∧ last.Failed x)
  | .never t => ∃ init last ms, Moved s t (init ++ [last]) ms ∧
      (init ++ [last]).map BusEvent.transaction <+: tr ∧ (∀ e ∈ init, e.succeeded = true) ∧
      last.hasAnswer = false ∧ (s.Clean → t.Bounded)
  | .refuse _ => True
  | .fault _ => True

/-- One part after another. -/
theorem Runs.bind {α β : Type} {s : State} {tr tr' : List Transaction} {m : Ends α} {k : α → State → Ends β}
    (hm : Runs s tr m) (hk : ∀ v t, m = .ok v t → Runs t tr' (k v t)) : Runs s (tr ++ tr') (m.bind k) := by
  cases m with
  | ok v t =>
    obtain ⟨evs, ms, hmove, rfl, hok, hclean⟩ := hm
    have h := hk v t rfl
    rw [Ends.bind_ok]
    cases hkv : k v t with
    | ok v' u =>
      rw [hkv] at h
      obtain ⟨evs', ms', hmove', rfl, hok', hclean'⟩ := h
      exact ⟨evs ++ evs', ms ++ ms', hmove.trans hmove', by simp,
        fun e he => (List.mem_append.mp he).elim (hok e) (hok' e), fun hc => hclean' (hclean hc)⟩
    | err x u =>
      rw [hkv] at h
      obtain ⟨evs', ms', hmove', hclean', h⟩ := h
      refine ⟨evs ++ evs', ms ++ ms', hmove.trans hmove', fun hc => hclean' (hclean hc), ?_⟩
      obtain ⟨hp, hok', hx⟩ | ⟨init, last, rfl, hp, hok', hx⟩ := h
      · exact .inl ⟨by simpa [List.prefix_append_right_inj] using hp,
          fun e he => (List.mem_append.mp he).elim (hok e) (hok' e), hx⟩
      · exact .inr ⟨evs ++ init, last, by simp, by simpa [List.prefix_append_right_inj] using hp,
          fun e he => (List.mem_append.mp he).elim (hok e) (hok' e), hx⟩
    | never u =>
      rw [hkv] at h
      obtain ⟨init, last, ms', hmove', hp, hok', hx, hb⟩ := h
      refine ⟨evs ++ init, last, ms ++ ms', ?_, ?_, fun e he => (List.mem_append.mp he).elim (hok e) (hok' e), hx,
        fun hc => hb (hclean hc)⟩
      · rw [List.append_assoc]; exact hmove.trans hmove'
      · rw [List.append_assoc, List.map_append, List.prefix_append_right_inj]; exact hp
    | refuse r => trivial
    | fault f => trivial
  | err x t =>
    obtain ⟨evs, ms, hmove, hclean, h⟩ := hm
    refine ⟨evs, ms, hmove, hclean, ?_⟩
    obtain ⟨hp, h⟩ | ⟨init, last, he, hp, h⟩ := h
    · exact .inl ⟨hp.trans (List.prefix_append _ _), h⟩
    · exact .inr ⟨init, last, he, hp.trans (List.prefix_append _ _), h⟩
  | never t =>
    obtain ⟨init, last, ms, hmove, hp, h⟩ := hm
    exact ⟨init, last, ms, hmove, hp.trans (List.prefix_append _ _), h⟩
  | refuse r => trivial
  | fault f => trivial

/-- A value without any transaction. -/
theorem Runs.pure {α : Type} (s : State) (v : α) : Runs s [] (.ok v s) :=
  ⟨[], [], .refl s, rfl, by simp, id⟩

/-- An Error of the block itself, without any transaction. -/
theorem Runs.raise {α : Type} (s : State) {x : Error} (h : x.NotBus) (tr : List Transaction) :
    Runs s tr (.err x s : Ends α) :=
  ⟨[], [], .refl s, id, .inl ⟨List.nil_prefix, by simp, h⟩⟩

/-- A SEND leaves no cell of a buffer with a value if there was none before. -/
theorem sendDone_clean {id : Word} {data : Option Word} {r : BusResult Unit} {rest : List (Answer Delivery)}
    {s : State} (hc : s.Clean) : (sendDone id data r rest s).Clean := by
  obtain ⟨-, ⟨h1, h2⟩, h3, h4⟩ := hc.fields
  simp [State.Clean, sendDone, State.visible, State.releaseTx, State.record, State.answered, h1, h2, h3, h4]

theorem sendFrame_runs (id : Word) (data : Option Word) (s : State) :
    Runs s [.write (frameOf id data)] (sendFrame id data s) := by
  have hl : ∀ r, (BusEvent.write Config.devAddr (frameOf id data) r).Lawful := fun r => ⟨rfl, id, data, rfl⟩
  have hlen : (frameOf id data).length ≤ 5 := by cases data <;> simp [frameOf, wordBytes, groupOf]
  obtain ⟨ht, h⟩ | ⟨d, rest, ht, h⟩ | ⟨e, rest, ht, h⟩ := sendFrame_cases id data s <;> rw [h]
  · refine ⟨[], .write Config.devAddr (frameOf id data) .pending, [], ?_, List.prefix_refl _, by simp, rfl, ?_⟩
    · constructor <;> simp [sendWaiting, ht, hl]
    · intro hc
      have := hc.bounded
      exact ⟨⟨hlen, rfl⟩, this.2⟩
  · refine ⟨[.write Config.devAddr (frameOf id data) (.ok ())], [], ?_, rfl, by simp [BusEvent.succeeded], ?_⟩
    · constructor <;> simp [sendDone, ht, hl, List.filter_cons]
    · exact sendDone_clean
  · refine ⟨[.write Config.devAddr (frameOf id data) (.fail e)], [], ?_, ?_, .inr ⟨[], _, rfl, List.prefix_refl _, by simp, rfl⟩⟩
    · constructor <;> simp [sendDone, ht, hl, List.filter_cons]
    · exact sendDone_clean

/-- A READ leaves no cell of a buffer with a value if there was none before. -/
theorem readDone_clean {n : Nat} {r : BusResult (List Byte)} {ms : List DiagEntry}
    {rest : List (Answer Delivery)} {s : State} (hc : s.Clean) : (readDone n r ms rest s).Clean := by
  obtain ⟨⟨h1, h2⟩, -⟩ := hc.fields
  simp [State.Clean, readDone, State.visible, State.releaseRx, State.record, State.answered, h1, h2]

theorem readReply_runs (n : Nat) (s : State) : Runs s [.read (3 * n)] (readReply n s) := by
  obtain ⟨-, h⟩ | ⟨hn, ⟨ht, h⟩ | ⟨e, rest, ht, h⟩ | ⟨d, rest, ht, hp, h⟩ | ⟨d, rest, m, ms, ht, hp, hm, h⟩⟩ :=
    readReply_cases n s <;> rw [h]
  · trivial
  · refine ⟨[], .read Config.devAddr (3 * n) .pending, [], ?_, List.prefix_refl _, by simp, rfl, ?_⟩
    · constructor <;> simp [readWaiting, ht]
      exact ⟨rfl, ⟨n, hn.1, hn.2, rfl⟩, by simp⟩
    · intro hc
      refine ⟨hc.bounded.1, ⟨Nat.zero_le _, ?_⟩, by simp [readWaiting]⟩
      simp only [readWaiting, State.record_rxLen, State.beginRead_rxLen]; omega
  · refine ⟨[.read Config.devAddr (3 * n) (.fail e)], [], ?_, readDone_clean,
      .inr ⟨[], _, rfl, List.prefix_refl _, by simp, rfl⟩⟩
    constructor <;> simp [readDone, ht, List.filter_cons]
    exact ⟨rfl, ⟨n, hn.1, hn.2, rfl⟩, by simp⟩
  · refine ⟨[.read Config.devAddr (3 * n) (.ok (delivered d (3 * n)))], replyMismatches d n, ?_, rfl,
      by simp [BusEvent.succeeded], readDone_clean⟩
    constructor <;> simp [readDone, ht, List.filter_cons]
    · refine ⟨rfl, ⟨n, hn.1, hn.2, rfl⟩, ?_⟩
      rintro bytes hb; cases hb; exact delivered_length d (by omega)
    · exact mismatchesFrom_differ d n 0
  · refine ⟨[.read Config.devAddr (3 * n) (.ok (delivered d (3 * n)))], [m], ?_, readDone_clean,
      .inl ⟨List.prefix_refl _, by simp [BusEvent.succeeded], trivial⟩⟩
    constructor <;> simp [readDone, ht, List.filter_cons]
    · refine ⟨rfl, ⟨n, hn.1, hn.2, rfl⟩, ?_⟩
      rintro bytes hb; cases hb; exact delivered_length d (by omega)
    · exact mismatchesFrom_differ d n 0 m (by rw [replyMismatches] at hm; simp [hm])

/-- The value handed on, changed. -/
theorem Runs.mapV {α β : Type} {s : State} {tr : List Transaction} {m : Ends α} (f : α → β) (h : Runs s tr m) :
    Runs s tr (m.bind fun v s => .ok (f v) s) := by
  have h' := Runs.bind (k := fun v s => .ok (f v) s) (tr' := []) h fun v t _ => Runs.pure t (f v)
  rwa [List.append_nil] at h'

theorem issue_runs (cmd : Command) (s : State) : Runs s (commandTraffic cmd) (issue cmd s) := by
  by_cases hw : expectedWords cmd = 0
  · have h := (sendFrame_runs (commandId cmd) (payload cmd) s).bind
      (k := fun _ s => if expectedWords cmd = 0 then .ok [] s else readReply (expectedWords cmd) s)
      (tr' := []) fun v t _ => by simpa [hw] using Runs.pure t ([] : List Word)
    simpa [commandTraffic, hw, issue] using h
  · have h := (sendFrame_runs (commandId cmd) (payload cmd) s).bind
      (k := fun _ s => if expectedWords cmd = 0 then .ok [] s else readReply (expectedWords cmd) s)
      (tr' := [.read (3 * expectedWords cmd)]) fun v t _ => by simpa [hw] using readReply_runs _ t
    simpa [commandTraffic, hw, issue] using h

/-! ## The traffic of each operation, in terms of its commands -/

theorem traffic_startCont : traffic .startCont = commandTraffic .startContinuous := by decide +kernel
theorem traffic_stopCont : traffic .stopCont = commandTraffic .stopContinuous := by decide +kernel
theorem traffic_getReady : traffic .getReady = commandTraffic .getDataReady := by decide +kernel
theorem traffic_readMeas : traffic .readMeas = commandTraffic .readMeasurement := by decide +kernel
theorem traffic_softReset : traffic .softReset = commandTraffic .softReset := by decide +kernel
theorem traffic_setAsc (b : Bool) : traffic (.setAsc b) = commandTraffic (.setAutomaticSelfCalibration b) := by
  revert b; decide +kernel
theorem traffic_setInterval (x : Word) : traffic (.setInterval x) = commandTraffic (.setContinuousInterval x) := by
  simp only [traffic, commandTraffic, expectedWords, frameOf, wordBytes, groupOf, commandId, payload, if_true,
    List.cons_append, List.nil_append, show hi8 0x4600 = 0x46 by decide, show lo8 0x4600 = 0x00 by decide]
theorem traffic_setFrc (x : Word) : traffic (.setFrc x) = commandTraffic (.setForcedRecalibration x) := by
  simp only [traffic, commandTraffic, expectedWords, frameOf, wordBytes, groupOf, commandId, payload, if_true,
    List.cons_append, List.nil_append, show hi8 0x5204 = 0x52 by decide, show lo8 0x5204 = 0x04 by decide]
theorem traffic_setToffset (x : Word) : traffic (.setToffset x) = commandTraffic (.setTemperatureOffset x) := by
  simp only [traffic, commandTraffic, expectedWords, frameOf, wordBytes, groupOf, commandId, payload, if_true,
    List.cons_append, List.nil_append, show hi8 0x5403 = 0x54 by decide, show lo8 0x5403 = 0x03 by decide]
theorem traffic_setAlt (x : Word) : traffic (.setAlt x) = commandTraffic (.setAltitude x) := by
  simp only [traffic, commandTraffic, expectedWords, frameOf, wordBytes, groupOf, commandId, payload, if_true,
    List.cons_append, List.nil_append, show hi8 0x5102 = 0x51 by decide, show lo8 0x5102 = 0x02 by decide]
theorem traffic_execCmd (c : Command) : traffic (.execCmd c) = commandTraffic c := rfl
theorem traffic_sampleDriver : traffic .sampleDriver = commandTraffic .getDataReady ++ commandTraffic .readMeasurement := by decide +kernel
theorem traffic_stopDriver : traffic .stopDriver = commandTraffic .stopContinuous := by decide +kernel
theorem traffic_openDriver {p : Nat} (h : periodValid p = true) :
    traffic (.openDriver p) = commandTraffic (.setContinuousInterval (lowWord p)) ++ commandTraffic .startContinuous := by
  have h' : 2 ≤ p ∧ p ≤ 1800 := by simpa [periodValid, Config.periodMin, Config.periodMax] using of_decide_eq_true h
  rw [← traffic_setInterval, ← traffic_startCont]
  simp only [traffic, if_pos h', List.cons_append, List.nil_append]
theorem traffic_send (id : Word) (data : Option Word) : traffic (.send id data) = [.write (frameOf id data)] := by
  cases data <;> rfl

/-! ## The driver's sequences -/

/-- OPEN: its transactions, then the flag; it returns nothing. -/
theorem openSequence_runs (p : Nat) (s : State) :
    ∃ m : Ends Value, Runs s (traffic (.openDriver p)) m ∧
      openSequence p s = (m.bind fun v s => .ok v (s.setCont true)) ∧ ∀ v t, m = .ok v t → v = .unit := by
  unfold openSequence
  split
  · exact ⟨.refuse .wrongDriverState, trivial, rfl, by simp⟩
  split
  · next h =>
    refine ⟨(issue (.setContinuousInterval (lowWord p)) s).bind fun _ s =>
      (issue .startContinuous s).bind fun _ s => .ok .unit s, ?_, ?_, ?_⟩
    · rw [traffic_openDriver h]
      exact (issue_runs _ s).bind fun _ t _ => (issue_runs .startContinuous t).mapV fun _ => Value.unit
    · cases issue (.setContinuousInterval (lowWord p)) s <;> simp
      next v t => cases issue .startContinuous t <;> simp
    · cases issue (.setContinuousInterval (lowWord p)) s <;> simp
      next v t => cases issue .startContinuous t <;> simp [eq_comm]
  · exact ⟨.err (.invalidConfiguration (.periodOutOfRange p)) s, Runs.raise s (by simp [Error.NotBus]) _, rfl, by simp⟩

/-- STOP: its transaction, then the flag; it returns nothing. -/
theorem stopSequence_runs (s : State) :
    ∃ m : Ends Value, Runs s (traffic .stopDriver) m ∧
      stopSequence s = (m.bind fun v s => .ok v (s.setCont false)) ∧ ∀ v t, m = .ok v t → v = .unit := by
  unfold stopSequence
  split
  · exact ⟨.refuse .wrongDriverState, trivial, rfl, by simp⟩
  · refine ⟨(issue .stopContinuous s).bind fun _ s => .ok .unit s, ?_, ?_, ?_⟩
    · rw [traffic_stopDriver]; exact (issue_runs .stopContinuous s).mapV fun _ => Value.unit
    · cases issue .stopContinuous s <;> simp
    · cases issue .stopContinuous s <;> simp [eq_comm]

/-- SAMPLE: its transactions. -/
theorem sampleSequence_runs (s : State) : Runs s (traffic .sampleDriver) (sampleSequence s) := by
  rw [traffic_sampleDriver]
  unfold sampleSequence
  split
  · trivial
  · refine (issue_runs .getDataReady s).bind fun r t hr => ?_
    match r, issue_length hr with
    | [word], _ =>
      simp only [List.getElem?_cons_zero]
      split
      · rw [← List.append_nil (commandTraffic .readMeasurement)]
        refine Runs.bind (issue_runs .readMeasurement t) fun m u hm => ?_
        obtain ⟨x, hx⟩ := sampleOf_some (issue_length hm)
        rw [hx]; exact Runs.pure u _
      · exact Runs.raise t (by simp [Error.NotBus]) _

/-! ## Errors of the block itself -/

/-- The transactions `tr` were made from `s` to `t`, and no other. -/
def Made (s t : State) (tr : List Transaction) : Prop :=
  ∃ evs, t.hist = s.hist ++ evs ∧ evs.map BusEvent.transaction = tr

theorem Made.trans {s t u : State} {tr tr' : List Transaction} (h : Made s t tr) (h' : Made t u tr') :
    Made s u (tr ++ tr') := by
  obtain ⟨evs, he, rfl⟩ := h
  obtain ⟨evs', he', rfl⟩ := h'
  exact ⟨evs ++ evs', by rw [he', he, List.append_assoc], by simp⟩

/-- An Ok end made all its transactions. -/
theorem Runs.made {α : Type} {s t : State} {tr : List Transaction} {v : α} (h : Runs s tr (.ok v t)) : Made s t tr := by
  obtain ⟨evs, _, hm, he, -⟩ := h
  exact ⟨evs, hm.hist, he⟩

/-- An Error of READ that is no bus failure is a mismatch under the strict policy, after its one bus read. -/
theorem readReply_notBus {n : Nat} {s t : State} {x : Error} (h : readReply n s = .err x t) (hx : x.NotBus) :
    s.crcPolicy = .strict ∧ (∃ k c, x = .checksumMismatch k c) ∧ Made s t [.read (3 * n)] := by
  obtain ⟨-, h'⟩ | ⟨-, ⟨-, h'⟩ | ⟨_, _, -, h'⟩ | ⟨_, _, -, -, h'⟩ | ⟨d, _, _, _, -, hp, -, h'⟩⟩ :=
    readReply_cases n s <;> rw [h'] at h <;> cases h
  · exact hx.elim
  · exact ⟨hp, ⟨_, _, rfl⟩, [.read Config.devAddr (3 * n) (.ok (delivered d (3 * n)))], by simp [readDone], rfl⟩

/-- An Error of EXEC that is no bus failure is a mismatch under the strict policy in a reply, after all its
transactions. -/
theorem issue_notBus {cmd : Command} {s t : State} {x : Error} (h : issue cmd s = .err x t) (hx : x.NotBus) :
    s.crcPolicy = .strict ∧ expectedWords cmd ≠ 0 ∧ (∃ k c, x = .checksumMismatch k c) ∧
      Made s t (commandTraffic cmd) := by
  obtain ⟨-, h'⟩ | ⟨_, _, -, h'⟩ | ⟨-, _, _, -, h'⟩ | ⟨hw, ⟨_, -, h'⟩ | ⟨_, _, _, -, h'⟩ | ⟨_, _, _, -, -, h'⟩ |
    ⟨_, d, _, _, _, -, hp, -, h'⟩⟩ := issue_cases cmd s <;> rw [h'] at h <;> cases h
  · exact hx.elim
  · exact hx.elim
  · exact ⟨hp, hw, ⟨_, _, rfl⟩, [.write Config.devAddr (frameOf (commandId cmd) (payload cmd)) (.ok ()),
      .read Config.devAddr (3 * expectedWords cmd) (.ok (delivered d (3 * expectedWords cmd)))],
      by simp [readDone, sendDone], by simp [commandTraffic, hw, BusEvent.transaction]⟩

/-- An Error of SAMPLE that is no bus failure comes after all its transactions, or is NotReady or a strict mismatch
after those of its first command. -/
theorem sampleSequence_notBus {s t : State} {x : Error} (h : sampleSequence s = .err x t) (hx : x.NotBus) :
    Made s t (traffic .sampleDriver) ∨
      Made s t (commandTraffic .getDataReady) ∧
        (x = .notReady ∨ s.crcPolicy = .strict ∧ ∃ k c, x = .checksumMismatch k c) := by
  unfold sampleSequence at h
  split at h
  · cases h
  cases hr : issue .getDataReady s with
  | err y u =>
    rw [hr] at h; cases h
    obtain ⟨hp, -, hm, hmade⟩ := issue_notBus hr hx
    exact .inr ⟨hmade, .inr ⟨hp, hm⟩⟩
  | ok r u =>
    rw [hr] at h
    have hmade : Made s u (commandTraffic .getDataReady) := Runs.made (hr ▸ issue_runs .getDataReady s)
    match r, issue_length hr with
    | [word], _ =>
      simp only [Ends.bind_ok, List.getElem?_cons_zero] at h
      split at h
      · cases hm : issue .readMeasurement u with
        | err y w =>
          rw [hm] at h; cases h
          rw [traffic_sampleDriver]
          exact .inl (hmade.trans (issue_notBus hm hx).2.2.2)
        | ok m w => rw [hm, Ends.bind_ok] at h; split at h <;> cases h
        | _ => rw [hm] at h; cases h
      · cases h; exact .inr ⟨hmade, .inl rfl⟩
  | _ => rw [hr] at h; cases h

/-! ## What an operation does not depend on -/

/-- The same end, every state in it changed by `f`. -/
def Ends.onState {α : Type} (f : State → State) : Ends α → Ends α
  | .ok v s => .ok v (f s)
  | .err x s => .err x (f s)
  | .never s => .never (f s)
  | .refuse r => .refuse r
  | .fault e => .fault e

/-- `m` does not look at what `f` changes, and leaves it changed. -/
def Respects {α : Type} (f : State → State) (m : State → Ends α) : Prop :=
  ∀ s, m (f s) = (m s).onState f

theorem Respects.bind {α β : Type} {f : State → State} {m : State → Ends α} {k : α → State → Ends β}
    (hm : Respects f m) (hk : ∀ v, Respects f (k v)) : Respects f fun s => (m s).bind k := by
  intro s
  show (m (f s)).bind k = ((m s).bind k).onState f
  rw [hm s]
  cases m s with
  | ok v t => exact hk v t
  | err x t => rfl
  | never t => rfl
  | refuse r => rfl
  | fault e => rfl

/-- `s` with records that begin with `d`, `h` and `o`. -/
def State.prepend (d : List DiagEntry) (h : List BusEvent) (o : List Returned) (s : State) : State :=
  { s with diag := d ++ s.diag, hist := h ++ s.hist, results := o ++ s.results }

/-- SEND looks at neither the flag nor the records. -/
theorem sendFrame_respects {f : State → State}
    (hf : (∃ b, f = fun s => s.setCont b) ∨ ∃ d h o, f = State.prepend d h o)
    (id : Word) (data : Option Word) : Respects f (sendFrame id data) := by
  intro s
  have ht : (f s).transport = s.transport := by obtain ⟨b, rfl⟩ | ⟨d, h, o, rfl⟩ := hf <;> rfl
  obtain ⟨h0, h⟩ | ⟨d, rest, h0, h⟩ | ⟨e, rest, h0, h⟩ := sendFrame_cases id data s <;> rw [h]
  · rw [sendFrame_silent (ht.trans h0)]
    obtain ⟨b, rfl⟩ | ⟨d, h, o, rfl⟩ := hf
    · rfl
    · simp [Ends.onState, sendWaiting, State.prepend, State.record, State.loadTx]
  · rw [sendFrame_ok (ht.trans h0)]
    obtain ⟨b, rfl⟩ | ⟨d, h, o, rfl⟩ := hf
    · rfl
    · simp [Ends.onState, sendDone, State.prepend, State.record, State.releaseTx, State.answered]
  · rw [sendFrame_fail (ht.trans h0)]
    obtain ⟨b, rfl⟩ | ⟨d, h, o, rfl⟩ := hf
    · rfl
    · simp [Ends.onState, sendDone, State.prepend, State.record, State.releaseTx, State.answered]

/-- READ looks at neither the flag nor the records. -/
theorem readReply_respects {f : State → State}
    (hf : (∃ b, f = fun s => s.setCont b) ∨ ∃ d h o, f = State.prepend d h o) (n : Nat) :
    Respects f (readReply n) := by
  intro s
  have ht : (f s).transport = s.transport := by obtain ⟨b, rfl⟩ | ⟨d, h, o, rfl⟩ := hf <;> rfl
  have hc : (f s).crcPolicy = s.crcPolicy := by obtain ⟨b, rfl⟩ | ⟨d, h, o, rfl⟩ := hf <;> rfl
  obtain ⟨hn, h⟩ | ⟨hn, ⟨h0, h⟩ | ⟨e, rest, h0, h⟩ | ⟨d, rest, h0, hp, h⟩ | ⟨d, rest, m, ms, h0, hp, hm, h⟩⟩ :=
    readReply_cases n s <;> rw [h]
  · rw [readReply_refused n hn]; rfl
  · rw [readReply_silent hn (ht.trans h0)]
    obtain ⟨b, rfl⟩ | ⟨d, h, o, rfl⟩ := hf
    · rfl
    · simp [Ends.onState, readWaiting, State.prepend, State.record, State.beginRead]
  · rw [readReply_fail hn (ht.trans h0)]
    obtain ⟨b, rfl⟩ | ⟨d, h, o, rfl⟩ := hf
    · rfl
    · simp [Ends.onState, readDone, State.prepend, State.record, State.releaseRx, State.answered]
  · rw [readReply_complete hn (ht.trans h0) (by rwa [hc])]
    obtain ⟨b, rfl⟩ | ⟨d, h, o, rfl⟩ := hf
    · rfl
    · simp [Ends.onState, readDone, State.prepend, State.record, State.releaseRx, State.answered]
  · rw [readReply_mismatch hn (ht.trans h0) (hc.trans hp) hm]
    obtain ⟨b, rfl⟩ | ⟨d, h, o, rfl⟩ := hf
    · rfl
    · simp [Ends.onState, readDone, State.prepend, State.record, State.releaseRx, State.answered]

/-- EXEC looks at neither the flag nor the records. -/
theorem issue_respects {f : State → State}
    (hf : (∃ b, f = fun s => s.setCont b) ∨ ∃ d h o, f = State.prepend d h o) (cmd : Command) :
    Respects f (issue cmd) := by
  refine Respects.bind (sendFrame_respects hf _ _) fun _ => ?_
  by_cases hw : expectedWords cmd = 0
  · intro s; simp [hw, Ends.onState]
  · simpa [hw] using readReply_respects hf (expectedWords cmd)

end Sys2Proof.Machine
end

