-- ==== Sys2Proof/Tests/Slice0.lean ====
section
/-! SUPPORT. The model's own tests. Every expected value is the spec's: the frames of spec/30_encoding.md R61, the
select codes of R58, the vectors V1 to V17 of spec/95_test_vectors.md. After them, for every obligation with hypotheses,
a state and operands that meet them. -/

open Sys2Proof Sys2Proof.Machine

set_option Elab.async false

namespace Sys2Proof.Tests

/-! ## Helpers -/

/-- A delivery that begins with `bs`. -/
def deliver (bs : List Byte) : Delivery :=
  ⟨((bs ++ List.replicate 18 0).take 18).toArray, by simp⟩

/-- An ok answer to a write. -/
def ack : Answer Delivery := .ok (deliver [])

/-- An ok answer to a read. -/
def reply (bs : List Byte) : Answer Delivery := .ok (deliver bs)

/-- The transport's error number 7. -/
def e7 : Config.TransportError := ⟨7⟩

/-- The block after reset with a driver state and a transport. -/
def block (cont : Bool) (answers : List (Answer Delivery)) : State :=
  { State.reset with cont := cont, transport := answers }

/-- The same under the strict policy. -/
def strictBlock (cont : Bool) (answers : List (Answer Delivery)) : State :=
  { block cont answers with crcPolicy := .strict }

/-- The same without state guard. -/
def freeBlock (cont : Bool) (answers : List (Answer Delivery)) : State :=
  { block cont answers with stateGuard := .unchecked }

/-- A block whose transport has not answered. -/
def hungBlock : State := { State.reset with hist := [.write 0x61 [0x02, 0x02] .pending], busy := true }

/-- The next state, if there is one. -/
def next? (o : Host.Outcome State Fault Refusal) : Option State :=
  match o with
  | .next t => some t
  | _ => none

/-- The refusal, if there is one. -/
def refusal? (o : Host.Outcome State Fault Refusal) : Option Refusal :=
  match o with
  | .refused r => some r
  | _ => none

theorem eq_next {o : Host.Outcome State Fault Refusal} {t : State} (h : next? o = some t) : o = .next t := by
  cases o <;> simp_all [next?]

/-- There is a next state. -/
theorem has_next {o : Host.Outcome State Fault Refusal} (h : (next? o).isSome = true) : ∃ t, o = .next t := by
  cases o <;> simp_all [next?]

/-- What an operation returns, logs and puts on the bus, and the flag after it. -/
def seen (i : Instr) (s : State) : Option (List Returned × List DiagEntry × List BusEvent × Bool) :=
  (next? (exec i s)).map fun t => (t.results, t.diag, t.hist, t.cont)

/-- The instruction a request decodes to, if any. -/
def decoded (r : Request) : Option Instr :=
  match decode r with
  | .ok i => some i
  | .error _ => none

/-! ## Decoding: words written out from R61 (frames) and R58 (select codes) -/

theorem test_decode_startCont : decode ⟨.long, [0x00, 0x10, 0x00, 0x00, 0x81]⟩ = .ok .startCont := by rfl

theorem test_decode_stopCont : decode ⟨.short, [0x01, 0x04]⟩ = .ok .stopCont := by rfl

theorem test_decode_setInterval : decode ⟨.long, [0x46, 0x00, 0x07, 0x08, 0x96]⟩ = .ok (.setInterval 1800) := by rfl

theorem test_decode_getReady : decode ⟨.short, [0x02, 0x02]⟩ = .ok .getReady := by rfl

theorem test_decode_readMeas : decode ⟨.short, [0x03, 0x00]⟩ = .ok .readMeas := by rfl

theorem test_decode_setAsc : decode ⟨.long, [0x53, 0x06, 0x00, 0x01, 0xB0]⟩ = .ok (.setAsc true) := by rfl

theorem test_decode_setAsc_false : decode ⟨.long, [0x53, 0x06, 0x00, 0x00, 0x81]⟩ = .ok (.setAsc false) := by rfl

theorem test_decode_setFrc : decode ⟨.long, [0x52, 0x04, 0x01, 0x90, 0x4C]⟩ = .ok (.setFrc 400) := by rfl

theorem test_decode_setToffset : decode ⟨.long, [0x54, 0x03, 0x01, 0xF4, 0x33]⟩ = .ok (.setToffset 500) := by rfl

theorem test_decode_setAlt : decode ⟨.long, [0x51, 0x02, 0x01, 0x2C, 0x8E]⟩ = .ok (.setAlt 300) := by rfl

theorem test_decode_softReset : decode ⟨.short, [0xD3, 0x04]⟩ = .ok .softReset := by rfl

theorem test_decode_crc8 : decode ⟨.host, [0x00, 0xBE, 0xEF]⟩ = .ok (.crc8 0xBE 0xEF) := by rfl

theorem test_decode_addChk : decode ⟨.host, [0x01, 0xBE, 0xEF]⟩ = .ok (.addChk 0xBEEF) := by rfl

theorem test_decode_verChk : decode ⟨.host, [0x02, 0xBE, 0xEF, 0x92]⟩ = .ok (.verChk 0xBE 0xEF 0x92) := by rfl

theorem test_decode_send_short : decode ⟨.host, [0x03, 0x02, 0x02]⟩ = .ok (.send 0x0202 none) := by rfl

theorem test_decode_send_long :
    decode ⟨.host, [0x03, 0x46, 0x00, 0x00, 0x0A]⟩ = .ok (.send 0x4600 (some 0x000A)) := by rfl

theorem test_decode_read : decode ⟨.host, [0x04, 0x06]⟩ = .ok (.read 6) := by rfl

theorem test_decode_exec :
    decode ⟨.host, [0x05, 0x02, 0x00, 0x0A]⟩ = .ok (.execCmd (.setContinuousInterval 10)) := by rfl

theorem test_decode_open : decode ⟨.host, [0x06, 0x07, 0x08]⟩ = .ok (.openDriver 1800) := by rfl

theorem test_decode_open_wide : decode ⟨.host, [0x06, 0x01, 0x00, 0x0A]⟩ = .ok (.openDriver 65546) := by rfl

theorem test_decode_sample : decode ⟨.host, [0x07]⟩ = .ok .sampleDriver := by rfl

theorem test_decode_stop : decode ⟨.host, [0x08]⟩ = .ok .stopDriver := by rfl

/-- CMDSEL 0 to 9 select the variants in the order of R58. -/
theorem test_decode_command_selects :
    ([[0x05, 0x00], [0x05, 0x01], [0x05, 0x02, 0x00, 0x0A], [0x05, 0x03], [0x05, 0x04], [0x05, 0x05, 0x01],
      [0x05, 0x06, 0x01, 0x90], [0x05, 0x07, 0x01, 0xF4], [0x05, 0x08, 0x01, 0x2C], [0x05, 0x09]].map
        fun bs => decoded ⟨.host, bs⟩) =
      [some (.execCmd .startContinuous), some (.execCmd .stopContinuous),
       some (.execCmd (.setContinuousInterval 10)), some (.execCmd .getDataReady),
       some (.execCmd .readMeasurement), some (.execCmd (.setAutomaticSelfCalibration true)),
       some (.execCmd (.setForcedRecalibration 400)), some (.execCmd (.setTemperatureOffset 500)),
       some (.execCmd (.setAltitude 300)), some (.execCmd .softReset)] := by decide +kernel

/-- Requests that are rejected, each by its own name. -/
theorem test_decode_rejects :
    decode ⟨.host, []⟩ = .error .emptyRequest ∧
    decode ⟨.host, [0x10]⟩ = .error (.notASelect 0x10) ∧
    decode ⟨.host, [0x09]⟩ = .error (.reservedSelect 0x09) ∧
    decode ⟨.host, [0x0F]⟩ = .error (.reservedSelect 0x0F) ∧
    decode ⟨.host, [0x07, 0x00]⟩ = .error (.operandShape 0x07) ∧
    decode ⟨.host, [0x04, 0x00, 0x01]⟩ = .error .leadingZero ∧
    decode ⟨.host, [0x05, 0x0A]⟩ = .error (.reservedCommand 0x0A) ∧
    decode ⟨.host, [0x05, 0x05, 0x02]⟩ = .error (.notABool 0x02) ∧
    decode ⟨.short, [0x01]⟩ = .error .frameLength ∧
    decode ⟨.short, [0x00, 0x10]⟩ = .error (.unknownIdentifier 0x0010) ∧
    decode ⟨.long, [0x00, 0x10, 0x00, 0x00, 0x00]⟩ = .error (.badChecksum 0x81 0x00) ∧
    decode ⟨.long, [0x00, 0x10, 0x00, 0x01, 0xB0]⟩ = .error (.badPayload 0x0010 0x0001) ∧
    decode ⟨.long, [0x53, 0x06, 0x00, 0x02, 0xE3]⟩ = .error (.badPayload 0x5306 0x0002) := by
  and_intros <;> rfl

/-- The nineteen rows of spec/opcode_table.json, each by its "match" word. -/
theorem test_opcode_table_rows :
    ([(40, 0x0010000081), (16, 0x0104), (40, 0x4600000000), (16, 0x0202), (16, 0x0300), (40, 0x5306000000),
      (40, 0x5204000000), (40, 0x5403000000), (40, 0x5102000000), (16, 0xD304),
      (8, 0), (8, 1), (8, 2), (8, 3), (8, 4), (8, 5), (8, 6), (8, 7), (8, 8)].map
        fun (p : Nat × Nat) => (decodeTableWord p.1 p.2).map Instr.mnemonic) =
      ["START_CONT", "STOP_CONT", "SET_INTERVAL", "GET_READY", "READ_MEAS", "SET_ASC", "SET_FRC", "SET_TOFFSET",
       "SET_ALT", "SOFT_RESET", "CRC8", "ADDCHK", "VERCHK", "SEND", "READ", "EXEC", "OPEN", "SAMPLE",
       "STOP"].map some := by decide +kernel

/-- The mnemonic of the text is R58's and R53's spelling (R60). -/
theorem test_asm :
    Instr.asm (.execCmd (.setContinuousInterval 10)) = "EXEC SET_INTERVAL, 10" ∧
    Instr.asm (.openDriver 1800) = "OPEN 1800" ∧ Instr.asm (.send 0x0202 none) = "SEND 514" := by decide +kernel

/-! ## Well-formedness: an ill-formed term for each check, which it refuses -/

theorem test_wf_read : (Instr.read 0).wf = false ∧ (Instr.read 1).wf = true ∧ (Instr.read 6).wf = true ∧
    (Instr.read 7).wf = false := by decide

theorem test_wf_open : (Instr.openDriver 1).wf = false ∧ (Instr.openDriver 2).wf = true ∧
    (Instr.openDriver 1800).wf = true ∧ (Instr.openDriver 1801).wf = false := by decide

theorem test_wf_frame_length : Request.wf ⟨.short, [0x01]⟩ = false ∧ Request.wf ⟨.long, [0x46, 0x00]⟩ = false ∧
    Request.wf ⟨.short, [0x01, 0x04]⟩ = true := by decide

theorem test_wf_host_shape : Request.wf ⟨.host, []⟩ = false ∧ Request.wf ⟨.host, [0x09]⟩ = false ∧
    Request.wf ⟨.host, [0x00, 0xBE]⟩ = false ∧ Request.wf ⟨.host, [0x01, 0xBE]⟩ = false ∧
    Request.wf ⟨.host, [0x02, 0xBE, 0xEF]⟩ = false ∧ Request.wf ⟨.host, [0x03, 0x02, 0x02, 0x00]⟩ = false ∧
    Request.wf ⟨.host, [0x04]⟩ = false ∧ Request.wf ⟨.host, [0x05]⟩ = false ∧ Request.wf ⟨.host, [0x06]⟩ = false ∧
    Request.wf ⟨.host, [0x07, 0x00]⟩ = false ∧ Request.wf ⟨.host, [0x08]⟩ = true := by decide

/-! ## The checksum: V1, V2, V9, V10 -/

theorem test_crc8_vectors_V1 :
    (([(0x0000, 0x81), (0x0001, 0xB0), (0x0002, 0xE3), (0x0003, 0xD2), (0x0005, 0x74), (0x000A, 0x5A), (0x0031,
      0x75), (0x0032, 0x26), (0x003C, 0x39), (0x0080, 0xFB), (0x00B4, 0xFA), (0x00FE, 0x1C)] ++
      [(0x00FF, 0x2D), (0x0100, 0x75), (0x0101, 0x44), (0x012C, 0x8E), (0x0190, 0x4C), (0x01F4, 0x33), (0x0640,
      0xE6), (0x0708, 0x96), (0x0709, 0xA7), (0x0E10, 0xAF), (0x1234, 0x37), (0x3100, 0xC7)] ++
      [(0x3F80, 0xD0), (0x4000, 0x08), (0x41AC, 0x7D), (0x41AD, 0x4C), (0x41B8, 0xFA), (0x4234, 0xD0), (0x4248,
      0x55), (0x4396, 0xBA), (0x43C8, 0xDB), (0x43DB, 0xCB), (0x5555, 0x9A), (0x7F80, 0x59)] ++
      [(0x7FC0, 0x64), (0x7FFF, 0x8F), (0x8000, 0xA2), (0x8080, 0xD8), (0xAAAA, 0xB7), (0xABCD, 0x6F), (0xBEEF,
      0x92), (0xC220, 0x74), (0xEFBE, 0xCE), (0xFF00, 0x00), (0xFF80, 0x7A), (0xFFFF, 0xAC)] : List (Word × Byte)).all
        fun p => crc8 (hi8 p.1) (lo8 p.1) == p.2) = true := by decide +kernel

/-- The intermediate values of V2: after the first shift steps of 0xBE and of 0xEF. -/
theorem test_crc8_trace_V2 :
    ((List.range 8).map fun k => crcShifts (k + 1) (0xFF ^^^ 0xBE)) =
      [0x82, 0x35, 0x6A, 0xD4, 0x99, 0x03, 0x06, 0x0C] ∧
    ((List.range 8).map fun k => crcShifts (k + 1) (0x0C ^^^ 0xEF)) =
      [0xF7, 0xDF, 0x8F, 0x2F, 0x5E, 0xBC, 0x49, 0x92] := by decide +kernel

theorem test_crc_table_V9 :
    ((List.range 256).map fun x => crcTable (BitVec.ofNat 8 x)) =
      [0x00, 0x31, 0x62, 0x53, 0xC4, 0xF5, 0xA6, 0x97, 0xB9, 0x88, 0xDB, 0xEA, 0x7D, 0x4C, 0x1F, 0x2E] ++
      [0x43, 0x72, 0x21, 0x10, 0x87, 0xB6, 0xE5, 0xD4, 0xFA, 0xCB, 0x98, 0xA9, 0x3E, 0x0F, 0x5C, 0x6D] ++
      [0x86, 0xB7, 0xE4, 0xD5, 0x42, 0x73, 0x20, 0x11, 0x3F, 0x0E, 0x5D, 0x6C, 0xFB, 0xCA, 0x99, 0xA8] ++
      [0xC5, 0xF4, 0xA7, 0x96, 0x01, 0x30, 0x63, 0x52, 0x7C, 0x4D, 0x1E, 0x2F, 0xB8, 0x89, 0xDA, 0xEB] ++
      [0x3D, 0x0C, 0x5F, 0x6E, 0xF9, 0xC8, 0x9B, 0xAA, 0x84, 0xB5, 0xE6, 0xD7, 0x40, 0x71, 0x22, 0x13] ++
      [0x7E, 0x4F, 0x1C, 0x2D, 0xBA, 0x8B, 0xD8, 0xE9, 0xC7, 0xF6, 0xA5, 0x94, 0x03, 0x32, 0x61, 0x50] ++
      [0xBB, 0x8A, 0xD9, 0xE8, 0x7F, 0x4E, 0x1D, 0x2C, 0x02, 0x33, 0x60, 0x51, 0xC6, 0xF7, 0xA4, 0x95] ++
      [0xF8, 0xC9, 0x9A, 0xAB, 0x3C, 0x0D, 0x5E, 0x6F, 0x41, 0x70, 0x23, 0x12, 0x85, 0xB4, 0xE7, 0xD6] ++
      [0x7A, 0x4B, 0x18, 0x29, 0xBE, 0x8F, 0xDC, 0xED, 0xC3, 0xF2, 0xA1, 0x90, 0x07, 0x36, 0x65, 0x54] ++
      [0x39, 0x08, 0x5B, 0x6A, 0xFD, 0xCC, 0x9F, 0xAE, 0x80, 0xB1, 0xE2, 0xD3, 0x44, 0x75, 0x26, 0x17] ++
      [0xFC, 0xCD, 0x9E, 0xAF, 0x38, 0x09, 0x5A, 0x6B, 0x45, 0x74, 0x27, 0x16, 0x81, 0xB0, 0xE3, 0xD2] ++
      [0xBF, 0x8E, 0xDD, 0xEC, 0x7B, 0x4A, 0x19, 0x28, 0x06, 0x37, 0x64, 0x55, 0xC2, 0xF3, 0xA0, 0x91] ++
      [0x47, 0x76, 0x25, 0x14, 0x83, 0xB2, 0xE1, 0xD0, 0xFE, 0xCF, 0x9C, 0xAD, 0x3A, 0x0B, 0x58, 0x69] ++
      [0x04, 0x35, 0x66, 0x57, 0xC0, 0xF1, 0xA2, 0x93, 0xBD, 0x8C, 0xDF, 0xEE, 0x79, 0x48, 0x1B, 0x2A] ++
      [0xC1, 0xF0, 0xA3, 0x92, 0x05, 0x34, 0x67, 0x56, 0x78, 0x49, 0x1A, 0x2B, 0xBC, 0x8D, 0xDE, 0xEF] ++
      [0x82, 0xB3, 0xE0, 0xD1, 0x46, 0x77, 0x24, 0x15, 0x3B, 0x0A, 0x59, 0x68, 0xFF, 0xCE, 0x9D, 0xAC] := by decide +kernel

/-- V10: the catalogue value of the parameter set over "123456789". -/
theorem test_crc_loop_V10 :
    crcFrom 0xFF [0x31, 0x32, 0x33, 0x34, 0x35, 0x36, 0x37, 0x38, 0x39] = 0xF7 := by decide +kernel

theorem test_residue_V7 : crcFrom 0xFF [0xBE, 0xEF, 0x92] = 0x00 ∧ crcFrom 0xFF [0xBE, 0xEF, 0x91] = 0x53 := by
  decide +kernel

/-! ## One step of each operation -/

theorem test_crc8 :
    seen (.crc8 0xBE 0xEF) (block false []) =
      some ([.ok (.byte 0x92)], [], [], false) := by decide +kernel

theorem test_crc8_swapped :
    seen (.crc8 0xEF 0xBE) (block false []) =
      some ([.ok (.byte 0xCE)], [], [], false) := by decide +kernel

theorem test_addChk :
    seen (.addChk 0xBEEF) (block false []) =
      some ([.ok (.group 0xBE 0xEF 0x92)], [], [], false) := by decide +kernel

theorem test_verChk :
    seen (.verChk 0xBE 0xEF 0x92) (block false []) =
      some ([.ok (.word 0xBEEF)], [], [], false) := by decide +kernel

theorem test_verChk_mismatch :
    seen (.verChk 0xBE 0xEF 0x91) (block false []) =
      some ([.err (.checksumMismatch 0x92 0x91)], [], [], false) := by decide +kernel

/-- V11 -/
theorem test_send_long :
    seen (.send 0x4600 (some 0x000A)) (block false [ack]) =
      some ([.ok .unit], [], [.write 0x61 [0x46, 0x00, 0x00, 0x0A, 0x5A] (.ok ())], false) := by decide +kernel

theorem test_send_short_fails :
    seen (.send 0x0010 none) (block true [.fail e7]) =
      some ([.err (.busWriteFailed e7)], [], [.write 0x61 [0x00, 0x10] (.fail e7)], true) := by decide +kernel

/-- V12 -/
theorem test_read_permissive :
    seen (.read 2) (block false [reply [0x00, 0x00, 0x00, 0xFF, 0xFF, 0xFF]]) =
      some ([.ok (.words [0x0000, 0xFFFF])], [⟨0x81, 0x00⟩, ⟨0xAC, 0xFF⟩], [.read 0x61 6 (.ok [0x00, 0x00, 0x00, 0xFF, 0xFF, 0xFF])], false) := by decide +kernel

theorem test_read_strict :
    seen (.read 2) (strictBlock false [reply [0x00, 0x00, 0x00, 0xFF, 0xFF, 0xFF]]) =
      some ([.err (.checksumMismatch 0x81 0x00)], [⟨0x81, 0x00⟩], [.read 0x61 6 (.ok [0x00, 0x00, 0x00, 0xFF, 0xFF, 0xFF])], false) := by decide +kernel

/-- V13 -/
theorem test_startCont :
    seen (.startCont) (block false [ack]) =
      some ([.ok .unit], [], [.write 0x61 [0x00, 0x10, 0x00, 0x00, 0x81] (.ok ())], false) := by decide +kernel

theorem test_stopCont :
    seen (.stopCont) (block true [ack]) =
      some ([.ok .unit], [], [.write 0x61 [0x01, 0x04] (.ok ())], true) := by decide +kernel

theorem test_setInterval :
    seen (.setInterval 1801) (block false [ack]) =
      some ([.ok .unit], [], [.write 0x61 [0x46, 0x00, 0x07, 0x09, 0xA7] (.ok ())], false) := by decide +kernel

/-- V14 -/
theorem test_getReady :
    seen (.getReady) (block false [ack, reply [0x00, 0x01, 0xB1]]) =
      some ([.ok (.words [0x0001])], [⟨0xB0, 0xB1⟩], [.write 0x61 [0x02, 0x02] (.ok ()), .read 0x61 3 (.ok [0x00, 0x01, 0xB1])], false) := by decide +kernel

theorem test_readMeas :
    seen (.readMeas) (block false [ack, reply [0x43, 0xC8, 0xDB, 0x00, 0x00, 0x81, 0x41, 0xAC, 0x7D, 0x00, 0x00, 0x81, 0x42, 0x34, 0xD0, 0x00, 0x00, 0x81]]) =
      some ([.ok (.words [0x43C8, 0x0000, 0x41AC, 0x0000, 0x4234, 0x0000])], [], [.write 0x61 [0x03, 0x00] (.ok ()),
        .read 0x61 18 (.ok [0x43, 0xC8, 0xDB, 0x00, 0x00, 0x81, 0x41, 0xAC, 0x7D, 0x00, 0x00, 0x81, 0x42, 0x34, 0xD0, 0x00, 0x00, 0x81])], false) := by decide +kernel

theorem test_setAsc :
    seen (.setAsc true) (block false [ack]) =
      some ([.ok .unit], [], [.write 0x61 [0x53, 0x06, 0x00, 0x01, 0xB0] (.ok ())], false) := by decide +kernel

theorem test_setFrc :
    seen (.setFrc 400) (block false [ack]) =
      some ([.ok .unit], [], [.write 0x61 [0x52, 0x04, 0x01, 0x90, 0x4C] (.ok ())], false) := by decide +kernel

theorem test_setToffset :
    seen (.setToffset 500) (block false [ack]) =
      some ([.ok .unit], [], [.write 0x61 [0x54, 0x03, 0x01, 0xF4, 0x33] (.ok ())], false) := by decide +kernel

theorem test_setAlt :
    seen (.setAlt 300) (block false [ack]) =
      some ([.ok .unit], [], [.write 0x61 [0x51, 0x02, 0x01, 0x2C, 0x8E] (.ok ())], false) := by decide +kernel

theorem test_softReset :
    seen (.softReset) (block true [ack]) =
      some ([.ok .unit], [], [.write 0x61 [0xD3, 0x04] (.ok ())], true) := by decide +kernel

theorem test_exec_getReady :
    seen (.execCmd .getDataReady) (block false [ack, reply [0x01, 0x01, 0x44]]) =
      some ([.ok (.words [0x0101])], [], [.write 0x61 [0x02, 0x02] (.ok ()), .read 0x61 3 (.ok [0x01, 0x01, 0x44])], false) := by decide +kernel

theorem test_exec_setInterval :
    seen (.execCmd (.setContinuousInterval 60)) (block false [ack]) =
      some ([.ok .unit], [], [.write 0x61 [0x46, 0x00, 0x00, 0x3C, 0x39] (.ok ())], false) := by decide +kernel

/-- V15 -/
theorem test_open :
    seen (.openDriver 10) (block false [ack, ack]) =
      some ([.ok .unit], [], [.write 0x61 [0x46, 0x00, 0x00, 0x0A, 0x5A] (.ok ()), .write 0x61 [0x00, 0x10, 0x00, 0x00, 0x81] (.ok ())], true) := by decide +kernel

theorem test_open_wide_period :
    seen (.openDriver 65546) (block false [ack, ack]) =
      some ([.err (.invalidConfiguration (.periodOutOfRange 65546))], [], [], false) := by decide +kernel

/-- V16, P6: a corrupted measurement passes under the permissive policy. -/
theorem test_sample :
    seen (.sampleDriver) (block true [ack, reply [0x00, 0x01, 0xB0], ack,
        reply [0x43, 0xC8, 0xDB, 0x00, 0x00, 0x81, 0x41, 0xAD, 0x7D, 0x00, 0x00, 0x81, 0x42, 0x34, 0xD0, 0x00, 0x00, 0x00]]) =
      some ([.ok (.sample ⟨0x43C80000, 0x41AD0000, 0x42340000⟩)], [⟨0x4C, 0x7D⟩, ⟨0x81, 0x00⟩], [.write 0x61 [0x02, 0x02] (.ok ()), .read 0x61 3 (.ok [0x00, 0x01, 0xB0]), .write 0x61 [0x03, 0x00] (.ok ()),
        .read 0x61 18 (.ok [0x43, 0xC8, 0xDB, 0x00, 0x00, 0x81, 0x41, 0xAD, 0x7D, 0x00, 0x00, 0x81, 0x42, 0x34, 0xD0, 0x00, 0x00, 0x00])], true) := by decide +kernel

theorem test_sample_notReady :
    seen (.sampleDriver) (block true [ack, reply [0x01, 0x01, 0x44]]) =
      some ([.err .notReady], [], [.write 0x61 [0x02, 0x02] (.ok ()), .read 0x61 3 (.ok [0x01, 0x01, 0x44])], true) := by decide +kernel

/-- V17 -/
theorem test_stop :
    seen (.stopDriver) (freeBlock true [ack]) =
      some ([.ok .unit], [], [.write 0x61 [0x01, 0x04] (.ok ())], false) := by decide +kernel

theorem test_stop_fails :
    seen (.stopDriver) (block true [.fail e7]) =
      some ([.err (.busWriteFailed e7)], [], [.write 0x61 [0x01, 0x04] (.fail e7)], true) := by decide +kernel

theorem test_refusals :
    refusal? (exec (.read 0) (block false [])) = some .preconditionViolation ∧
    refusal? (exec (.openDriver 10) (block true [ack, ack])) = some .wrongDriverState ∧
    refusal? (exec .sampleDriver (block false [])) = some .wrongDriverState ∧
    refusal? (exec .stopDriver (block false [ack])) = some .wrongDriverState ∧
    refusal? (exec .getReady hungBlock) = some .requestWhileBusy ∧
    refusal? (hostReset hungBlock) = some .resetWhileBusy := by decide +kernel

/-- The table's words run from reset: each of these rows' instructions is the first step after reset. -/
theorem test_first_step_after_reset :
    ((next? (step (State.reset.withFetchWord 8 0))).map (·.results)) = some [.ok (.byte 0x81)] ∧
    ((next? (step (State.reset.withFetchWord 8 6))).map (·.results)) =
      some [.err (.invalidConfiguration (.periodOutOfRange 0))] ∧
    ((next? (step (State.reset.withFetchWord 40 0x4600000000))).map (·.hist)) =
      some [.write 0x61 [0x46, 0x00, 0x00, 0x00, 0x81] .pending] := by decide +kernel

/-! ## For every obligation with hypotheses, a state and operands that meet them -/

theorem witness_EncodeUndoesDecode :
    decode ⟨.host, [0x04, 0x06]⟩ = .ok (.read 6) ∧
    decode ⟨.long, [0x46, 0x00, 0x07, 0x08, 0x00]⟩ = .ok (.setInterval 1800) ∧
    (encode (.setInterval 1800)).bytes = [0x46, 0x00, 0x07, 0x08, 0x96] := ⟨rfl, rfl, by decide +kernel⟩

theorem witness_RequestOfWrongShapeIsRejected :
    Request.wf ⟨.short, [0x01]⟩ = false ∧ Request.wf ⟨.host, [0x09]⟩ = false := by decide

theorem witness_ReservedSelectsAreRefused :
    let s (sel : Byte) : State := { block false [] with inbox := [.request (hostRequest sel [])] }
    (s 9).busy = false ∧ 9 ≤ (9 : Byte).toNat ∧ (15 : Byte).toNat ≤ 15 ∧
      (s 15).inbox = [.request (hostRequest 15 [])] := by decide

theorem witness_StepRunsTheDecodedRequest :
    let s : State := { block false [ack] with inbox := [.request ⟨.short, [0x01, 0x04]⟩, .reset] }
    s.busy = false ∧ s.inbox = [.request ⟨.short, [0x01, 0x04]⟩, .reset] ∧
      decode ⟨.short, [0x01, 0x04]⟩ = .ok .stopCont := ⟨rfl, rfl, rfl⟩

theorem witness_StepRunsTheFetchWord :
    State.reset.busy = false ∧ decodeTableWord 16 0x0104 = some .stopCont := by decide +kernel

theorem witness_StepWithNothingToTakeUp :
    hungBlock.busy = true ∧ State.reset.busy = false ∧ State.reset.inbox = [] := by decide

/-- The hang is reachable: the transport of the reset state never answers. -/
theorem witness_HungBlockStaysHung :
    hungBlock.busy = true ∧ (next? (exec .getReady State.reset)).map (·.busy) = some true := by decide +kernel

theorem witness_ResetEventRestoresTheResetState :
    let s : State := { block true [ack] with inbox := [.reset, .reset], diag := [⟨1, 2⟩] }
    s.busy = false ∧ s.inbox = [.reset, .reset] := by decide

theorem witness_ResetDuringAnOperationIsRefused : hungBlock.busy = true := rfl

theorem witness_OverlappingRequestIsRefused : hungBlock.busy = true := rfl

theorem witness_ChecksumOperationsArePure :
    (block true [ack]).busy = false ∧ crc8 0xBE 0xEF = 0x92 ∧ crc8 0xBE 0xEF ≠ 0x91 := by decide +kernel

theorem witness_ChecksumRoundTrip : (block false []).busy = false := rfl

/-- One, three and five flipped bits, and bursts at both ends of the group. -/
theorem witness_SmallCorruptionsNeverVerify :
    groupVerifies 0xBEEF92 = true ∧ weight 0x000001 = 1 ∧ weight 0x800081 = 3 ∧ weight 0xF00001 = 5 ∧
      (0x81 : Byte) ≠ 0 ∧ (0x810000 : BitVec 24) = (0x81 : Byte).zeroExtend 24 <<< 16 ∧
      (0x000081 : BitVec 24) = (0x81 : Byte).zeroExtend 24 <<< 0 := by decide +kernel

/-- V5's last row is one of the eighty. -/
theorem witness_EightyFourBitCorruptionsVerify :
    groupVerifies 0xBEEF92 = true ∧ groupVerifies (0xBEEF92 ^^^ 0x000131) = true ∧
      (fourBitPatterns.contains 0x000131) = true := by decide +kernel

/-- Both forms of frame, and the three ways the transport can answer. -/
theorem witness_SendMeaning :
    (block false []).busy = false ∧ ([0x02, 0x02] : List Byte) = [hi8 0x0202, lo8 0x0202] ∧
    ([0x46, 0x00, 0x00, 0x0A, 0x5A] : List Byte) = [hi8 0x4600, lo8 0x4600, hi8 0x000A, lo8 0x000A,
      crc8 (hi8 0x000A) (lo8 0x000A)] ∧
    (block false [ack]).transport = [ack] ∧ (block false [.fail e7]).transport = [.fail e7] ∧
    (block false []).transport = [] := by decide +kernel

/-- Both sides at the boundary: 0 and 7 are refused, 1 and 6 are not. -/
theorem witness_ReadPrecondition :
    refusal? (exec (.read 0) State.reset) = some .preconditionViolation ∧
    refusal? (exec (.read 7) State.reset) = some .preconditionViolation ∧
    refusal? (exec (.read 1) State.reset) = none ∧ refusal? (exec (.read 6) State.reset) = none ∧
    State.reset.busy = false := by decide +kernel

theorem witness_ReadPermissive :
    let s := block false [reply [0x00, 0x01, 0x00]]
    s.busy = false ∧ s.crcPolicy = .permissive ∧ 1 ≤ 1 ∧ 6 ≤ 6 ∧ s.transport = [reply [0x00, 0x01, 0x00]] := by
  decide

/-- A reply of two groups whose first verifies and whose second does not, and one that verifies whole. -/
theorem witness_ReadStrict :
    let d := deliver [0xBE, 0xEF, 0x92, 0xBE, 0xEF, 0x91]
    (strictBlock false [.ok d]).busy = false ∧ (strictBlock false [.ok d]).crcPolicy = .strict ∧
    crc8 (byteAt d 0) (byteAt d 1) = byteAt d 2 ∧ crc8 (byteAt d 3) (byteAt d 4) ≠ byteAt d 5 := by decide +kernel

theorem witness_ReadBusFailure :
    let s := block true [.fail e7, ack]
    s.busy = false ∧ s.transport = .fail e7 :: [ack] ∧ (block true []).transport = [] := by decide

theorem witness_ChecksumBytesInfluenceOnlyDiag :
    let d := deliver [0x00, 0x01, 0xB0]
    let d' := deliver [0x00, 0x01, 0x00]
    (block false []).crcPolicy = .permissive ∧ byteAt d 0 = byteAt d' 0 ∧ byteAt d 1 = byteAt d' 1 ∧
    (next? (exec (.read 1) { block false [] with transport := [.ok d] })).isSome = true ∧
    (next? (exec (.read 1) { block false [] with transport := [.ok d'] })).isSome = true := by decide +kernel

theorem witness_CommandIdentifiersAreDistinct :
    commandId (.setAltitude 1) = commandId (.setAltitude 2) ∧ payload (.setAltitude 1) = payload (.setAltitude 1) :=
  ⟨rfl, rfl⟩

theorem witness_CommandsWithoutReply :
    (block true [ack]).busy = false ∧ (block true [ack]).transport = .ok (deliver []) :: [] ∧
    (block true [.fail e7]).transport = .fail e7 :: [] ∧ (block true []).transport = [] := by decide

/-- A reply that is taken under the strict policy, and one that is not. -/
theorem witness_CommandsWithReply :
    let good := deliver [0x00, 0x01, 0xB0]
    let bad := deliver [0x00, 0x01, 0xB1]
    (strictBlock false [ack, .ok good]).busy = false ∧ replyMismatches good 1 = [] ∧
    replyMismatches bad 1 = [⟨0xB0, 0xB1⟩] ∧ (strictBlock false [ack, .ok bad]).crcPolicy = .strict ∧
    (block false [ack, .fail e7]).transport = [ack, .fail e7] ∧ (block false [ack]).transport = [ack] := by
  decide +kernel

theorem witness_ExecMeaning :
    payload .softReset = none ∧ expectedWords .softReset = 0 ∧ payload (.setAltitude 300) = some 300 ∧
    expectedWords .readMeasurement ≠ 0 ∧ replyMismatches (deliver []) 6 ≠ [] ∧
    (block false [ack, ack]).busy = false ∧ Taken (block false [ack, ack]) (deliver []) 6 :=
  ⟨rfl, rfl, rfl, by decide, by decide +kernel, rfl, .inl rfl⟩

theorem witness_SoftResetIsNotAReset :
    (∃ t, exec .softReset (block true [ack]) = .next t) ∧ ∃ t, exec .softReset (block true []) = .next t :=
  ⟨has_next (by decide +kernel), has_next (by decide +kernel)⟩

/-- Both bounds of the period, with and without the guard. -/
theorem witness_OpenCompletes :
    (block false [ack, ack]).busy = false ∧ GuardPasses (block false [ack, ack]) false ∧
    GuardPasses (freeBlock true [ack, ack]) false ∧ 2 ≤ 2 ∧ 1800 ≤ 1800 ∧
    (block false [ack, ack]).transport = [ack, ack] := ⟨rfl, .inr rfl, .inl rfl, by decide, by decide, rfl⟩

theorem witness_OpenRejectsPeriod :
    (block false []).busy = false ∧ GuardPasses (block false []) false ∧ (1 < 2 ∨ 1800 < 1) ∧
    (1801 < 2 ∨ 1800 < 1801) ∧ 1800 < 65546 := ⟨rfl, .inr rfl, by decide, by decide, by decide⟩

/-- With the guard and without it, CONT set; each of the five ways the transport can end it. -/
theorem witness_FailedOpenUndoesNothing :
    let s := block false [ack, .fail e7, ack, ack]
    s.busy = false ∧ GuardPasses s false ∧ GuardPasses (freeBlock true [.fail e7]) false ∧ s.transport = ack :: .fail e7 :: [ack, ack] ∧
    ([0x46, 0x00, 0x00, 0x0A, 0x5A] : List Byte) = [0x46, 0x00, hi8 (BitVec.ofNat 16 10), lo8 (BitVec.ofNat 16 10),
      crc8 (hi8 (BitVec.ofNat 16 10)) (lo8 (BitVec.ofNat 16 10))] ∧
    (block false [.fail e7]).transport = .fail e7 :: [] ∧ (block false []).transport = [] ∧
    (block false [ack]).transport = [ack] :=
  ⟨rfl, .inr rfl, .inl rfl, rfl, by decide +kernel, rfl, rfl, rfl⟩

theorem witness_SampleReady :
    let d1 := deliver [0x00, 0x01, 0xB0]
    let d3 := deliver [0x43, 0xC8, 0xDB, 0x00, 0x00, 0x81]
    let s := block true [ack, .ok d1, ack, .ok d3]
    s.busy = false ∧ GuardPasses s true ∧ s.transport = [ack, .ok d1, ack, .ok d3] ∧ Taken s d1 1 ∧ Taken s d3 6 ∧
    byteAt d1 0 = 0x00 ∧ byteAt d1 1 = 0x01 :=
  ⟨rfl, .inr rfl, rfl, .inl rfl, .inl rfl, by decide +kernel, by decide +kernel⟩

/-- Ready words 0x0000, 0x0002 and 0x0101 are not ready (R126). -/
theorem witness_SampleNotReady :
    let d1 := deliver [0x01, 0x01, 0x44]
    let s := strictBlock true [ack, .ok d1]
    s.busy = false ∧ GuardPasses s true ∧ s.transport = [ack, .ok d1] ∧ Taken s d1 1 ∧
    ¬(byteAt d1 0 = 0x00 ∧ byteAt d1 1 = 0x01) ∧
    ¬(byteAt (deliver [0x00, 0x02]) 0 = 0x00 ∧ byteAt (deliver [0x00, 0x02]) 1 = 0x01) ∧
    ¬(byteAt (deliver []) 0 = 0x00 ∧ byteAt (deliver []) 1 = 0x01) :=
  ⟨rfl, .inr rfl, rfl, .inr (by decide +kernel), by decide +kernel, by decide +kernel, by decide +kernel⟩

theorem witness_SampleFirstCommandErrors :
    let bad := deliver [0x00, 0x01, 0x00]
    let s := strictBlock true [ack, .ok bad]
    s.busy = false ∧ GuardPasses s true ∧ s.crcPolicy = .strict ∧ replyMismatches bad 1 = [⟨0xB0, 0x00⟩] ∧
    (block true [.fail e7]).transport = .fail e7 :: [] ∧ (block true [ack, .fail e7]).transport = [ack, .fail e7] ∧
    (block true []).transport = [] ∧ (block true [ack]).transport = [ack] :=
  ⟨rfl, .inr rfl, rfl, by decide +kernel, rfl, rfl, rfl, rfl⟩

theorem witness_SampleSecondCommandErrors :
    let d1 := deliver [0x00, 0x01, 0xB0]
    let s := strictBlock true [ack, .ok d1, ack, ack]
    s.busy = false ∧ GuardPasses s true ∧ Taken s d1 1 ∧ byteAt d1 0 = 0x00 ∧ byteAt d1 1 = 0x01 ∧
    s.transport = [ack, .ok d1, ack, ack] ∧ s.crcPolicy = .strict ∧ replyMismatches (deliver []) 6 ≠ [] ∧
    (block true [ack, .ok d1, .fail e7]).transport = [ack, .ok d1, .fail e7] ∧
    (block true [ack, .ok d1, ack, .fail e7]).transport = [ack, .ok d1, ack, .fail e7] ∧
    (block true [ack, .ok d1]).transport = [ack, .ok d1] ∧
    (block true [ack, .ok d1, ack]).transport = [ack, .ok d1, ack] :=
  ⟨rfl, .inr rfl, .inr (by decide +kernel), by decide +kernel, by decide +kernel, rfl, rfl, by decide +kernel, rfl, rfl,
    rfl, rfl⟩

theorem witness_StopCompletes :
    (block true [ack]).busy = false ∧ GuardPasses (block true [ack]) true ∧ GuardPasses (freeBlock false [ack]) true ∧
    (block true [ack]).transport = ack :: [] ∧ (block true []).transport = [] := ⟨rfl, .inr rfl, .inl rfl, rfl, rfl⟩

theorem witness_FailedStopChangesNothing :
    let s := block true [.fail e7, ack]
    s.busy = false ∧ GuardPasses s true ∧ GuardPasses (freeBlock false [.fail e7]) true ∧
      s.transport = .fail e7 :: [ack] := ⟨rfl, .inr rfl, .inl rfl, rfl⟩

theorem witness_StateGuardMeaning :
    (block true []).busy = false ∧ (block true []).stateGuard = .refuse ∧ (block true []).cont = true ∧
    (block false []).cont = false ∧ (freeBlock false [ack]).stateGuard = .unchecked ∧
    ∃ t, exec .stopDriver (freeBlock false [ack]) = .next t :=
  ⟨rfl, rfl, rfl, rfl, rfl, has_next (by decide +kernel)⟩

theorem witness_ContChangesOnlyByOpenAndStop :
    (∃ t, exec (.openDriver 10) (block false [ack, ack]) = .next t) ∧
    (∃ t, exec .stopDriver (block true [ack]) = .next t) ∧ ∃ t, exec .softReset (block true [ack]) = .next t :=
  ⟨has_next (by decide +kernel), has_next (by decide +kernel), has_next (by decide +kernel)⟩

theorem witness_ErrorsLeaveTheFlag :
    (next? (exec .stopDriver (block true [.fail e7]))).map (·.results) =
      some ((block true [.fail e7]).results ++ [.err (.busWriteFailed e7)]) := by decide +kernel

/-- The three ends: an outcome, a hang, a refusal. -/
theorem witness_EveryOperationEndsOnce :
    (next? (exec .stopDriver (block true [ack]))).map (·.busy) = some false ∧
    (next? (exec .stopDriver (block true []))).map (·.busy) = some true ∧
    refusal? (exec .stopDriver (block false [])) = some .wrongDriverState ∧ (block true []).busy = false := by
  decide +kernel

theorem witness_OutcomesOfEachOperation :
    (∃ t, exec .sampleDriver (block true [ack, ack]) = .next t) ∧ ∃ t, exec .sampleDriver (block true []) = .next t :=
  ⟨has_next (by decide +kernel), has_next (by decide +kernel)⟩

theorem witness_RefusalsOfEachOperation :
    (block false []).busy = false ∧ refusal? (exec (.read 7) (block false [])) = some .preconditionViolation ∧
    refusal? (exec .sampleDriver (block false [])) = some .wrongDriverState := by decide +kernel

/-- Cells that have not been written: all of them between operations, and the rest of them inside one. -/
theorem witness_NoOperationReadsUnwrittenScratch :
    (block false []).rx.length ≤ 0 ∧ ((block false []).loadRx [0x00, 0x01, 0xB0]).rx.length ≤ 3 ∧
    (block false []).tx.length < { block false [] with txLen := 2 }.txLen ∧
    (block false []).w.length < ((block false []).setWLen 1).wLen := by decide

theorem witness_BusErrorsAreTheLastAnswer :
    (next? (exec .getReady (block true [.fail e7]))).map (fun t => (t.results, t.hist)) =
      some ([.err (.busWriteFailed e7)], [] ++ [] ++ [.write 0x61 [0x02, 0x02] (.fail e7)]) ∧
    (next? (exec .getReady (block true [ack, .fail e7]))).map (fun t => (t.results, t.hist)) =
      some ([.err (.busReadFailed e7)],
        [] ++ [.write 0x61 [0x02, 0x02] (.ok ())] ++ [.read 0x61 3 (.fail e7)]) := by decide +kernel

/-- An operation that returns Ok, and the three ways to make fewer transactions: a failure, a hang, and a ready word
that ends SAMPLE by its value or, under the strict policy, by its checksum. -/
theorem witness_TrafficOfEachOperation :
    let last (s : State) := (next? (exec .sampleDriver s)).map fun t => (t.hist.length, t.results)
    (next? (exec (.openDriver 10) (block false [ack, ack]))).map (fun t => t.results) = some [.ok .unit] ∧
    last (block true [ack, .fail e7]) = some (2, [.err (.busReadFailed e7)]) ∧
    last (block true [ack]) = some (2, []) ∧ last (block true [ack, ack]) = some (2, [.err .notReady]) ∧
    last (strictBlock true [ack, ack]) = some (2, [.err (.checksumMismatch 0x81 0x00)]) ∧
    traffic .sampleDriver = [.write [0x02, 0x02], .read 3, .write [0x03, 0x00], .read 18] := by decide +kernel

theorem witness_NoOperationReadsTheRecords :
    ∃ t, exec (.read 1) (block true [reply [0x00, 0x01, 0x00]]) = .next t := has_next (by decide +kernel)

theorem witness_OneAnswerForEachTransaction :
    (next? (exec .sampleDriver (block true [ack, ack, ack]))).map (·.transport) = some [ack] := by decide +kernel

theorem witness_ScratchBelongsToItsOperation :
    (∃ t, exec (.send 0x0202 none) (block true []) = .next t) ∧ (∃ t, exec (.read 1) (block true []) = .next t) ∧
    expectedWords .softReset = 0 ∧ (∃ t, exec (.execCmd .softReset) (block true [ack]) = .next t) ∧
    (∃ t, exec (.crc8 0 0) (block true []) = .next t) ∧ (∃ t, exec (.addChk 0) (block true []) = .next t) ∧
    (∃ t, exec (.verChk 0 0 0) (block true []) = .next t) ∧
    (∃ t, exec (.openDriver 10) (block false [ack, ack]) = .next t) ∧
    (∃ t, exec .stopDriver (block true [ack]) = .next t) ∧ ∃ t, exec .startCont (block true []) = .next t :=
  ⟨has_next (by decide +kernel), has_next (by decide +kernel), rfl, has_next (by decide +kernel),
    has_next (by decide +kernel), has_next (by decide +kernel), has_next (by decide +kernel),
    has_next (by decide +kernel), has_next (by decide +kernel), has_next (by decide +kernel)⟩

/-- A state with a request that meets the invariant and steps. -/
theorem witness_StepKeepsTheInvariant :
    let s : State := { State.reset with inbox := [.request ⟨.short, [0x01, 0x04]⟩] }
    s.Inv ∧ ∃ t, step s = .next t := by
  refine ⟨?_, has_next (by decide +kernel)⟩
  constructor <;> simp [State.reset, State.visible]

end Sys2Proof.Tests
end

/-! # No operation reads an unwritten cell of the scratch buffers (spec/10_state.md R26) -/

namespace Sys2Proof.Machine

/-! ## Reading past the written cells -/

theorem readRx_unwritten {s : State} {i : Nat} (h : s.rx.length ≤ i) :
    readRx i s = .fault .unwrittenScratch := by
  simp [readRx, List.getElem?_eq_none h]

theorem readTx_unwritten {s : State} (h : s.tx.length < s.txLen) : readTx s = .fault .unwrittenScratch := by
  simp [readTx, Nat.not_le.mpr h]

theorem readW_unwritten {s : State} (h : s.w.length < s.wLen) : readW s = .fault .unwrittenScratch := by
  simp [readW, Nat.not_le.mpr h]

/-! ## Parts of operations that end without a fault -/

/-- The operation, or the part of one, does not end in a fault. -/
def Ends.FaultFree {α : Type} (m : Ends α) : Prop := ∀ f, m ≠ .fault f

section FaultFree

variable {α β : Type}

@[simp] theorem Ends.faultFree_ok (v : α) (s : State) : (Ends.ok v s).FaultFree := nofun
@[simp] theorem Ends.faultFree_err (x : Error) (s : State) : (Ends.err x s : Ends α).FaultFree := nofun
@[simp] theorem Ends.faultFree_never (s : State) : (Ends.never s : Ends α).FaultFree := nofun
@[simp] theorem Ends.faultFree_refuse (r : Refusal) : (Ends.refuse r : Ends α).FaultFree := nofun

/-- A sequence is free of faults when its first part is, and its second part is after every value the first can
end with. -/
theorem Ends.FaultFree.bind {m : Ends α} {k : α → State → Ends β} (hm : m.FaultFree)
    (hk : ∀ v t, m = .ok v t → (k v t).FaultFree) : (m.bind k).FaultFree := by
  cases m with
  | ok v t => exact hk v t rfl
  | err x t => exact Ends.faultFree_err x t
  | never t => exact Ends.faultFree_never t
  | refuse r => exact Ends.faultFree_refuse r
  | fault f => exact absurd rfl (hm f)

end FaultFree

theorem sendFrame_faultFree (id : Word) (data : Option Word) (s : State) : (sendFrame id data s).FaultFree := by
  obtain ⟨-, h⟩ | ⟨_, _, -, h⟩ | ⟨_, _, -, h⟩ := sendFrame_cases id data s <;> simp [h]

theorem readReply_faultFree (n : Nat) (s : State) : (readReply n s).FaultFree := by
  obtain ⟨-, h⟩ | ⟨-, ⟨-, h⟩ | ⟨_, _, -, h⟩ | ⟨_, _, -, -, h⟩ | ⟨_, _, _, _, -, -, -, h⟩⟩ := readReply_cases n s <;>
    simp [h]

theorem issue_faultFree (cmd : Command) (s : State) : (issue cmd s).FaultFree := by
  rw [issue_eq]
  refine (sendFrame_faultFree _ _ s).bind fun _ t _ => ?_
  split
  · exact Ends.faultFree_ok _ t
  · exact readReply_faultFree _ t

/-! ## The driver's sequences -/

theorem openSequence_faultFree (period : Nat) (s : State) : (openSequence period s).FaultFree := by
  unfold openSequence
  split
  · exact Ends.faultFree_refuse _
  · split
    · exact (issue_faultFree _ s).bind fun _ t _ =>
        (issue_faultFree _ t).bind fun _ u _ => Ends.faultFree_ok _ (u.setCont true)
    · exact Ends.faultFree_err _ s

theorem stopSequence_faultFree (s : State) : (stopSequence s).FaultFree := by
  unfold stopSequence
  split
  · exact Ends.faultFree_refuse _
  · exact (issue_faultFree _ s).bind fun _ t _ => Ends.faultFree_ok _ (t.setCont false)

/-- SAMPLE takes its words from replies that are as long as the Command Table says: one ready word, six of the
measurement. -/
theorem sampleSequence_faultFree (s : State) : (sampleSequence s).FaultFree := by
  unfold sampleSequence
  split
  · exact Ends.faultFree_refuse _
  · refine (issue_faultFree _ s).bind fun r t hr => ?_
    obtain ⟨word, rfl⟩ := List.length_eq_one_iff.mp (issue_length hr)
    show Ends.FaultFree (if isReady word then _ else _)
    split
    · refine (issue_faultFree _ t).bind fun m u hm => ?_
      obtain ⟨x, hx⟩ := sampleOf_some (issue_length hm)
      simp [hx]
    · exact Ends.faultFree_err _ t

/-! ## Whole operations and steps -/

theorem runOp_ne_fault {s : State} {body : State → Ends Value} (h : (body s).FaultFree) (f : Fault) :
    runOp s body ≠ .fault f := by
  unfold runOp
  split
  · simp
  · cases hb : body s with
    | fault g => exact absurd hb (h g)
    | _ => simp

theorem execCommand_ne_fault (cmd : Command) (s : State) (f : Fault) : execCommand cmd s ≠ .fault f :=
  runOp_ne_fault ((issue_faultFree cmd s).bind fun _ t _ => Ends.faultFree_ok _ t) f

theorem execVerChk_ne_fault (b0 b1 c : Byte) (s : State) (f : Fault) : execVerChk b0 b1 c s ≠ .fault f := by
  refine runOp_ne_fault ?_ f
  split
  · exact Ends.faultFree_ok _ s
  · exact Ends.faultFree_err _ s

theorem execSend_ne_fault (id : Word) (data : Option Word) (s : State) (f : Fault) : execSend id data s ≠ .fault f :=
  runOp_ne_fault ((sendFrame_faultFree id data s).bind fun _ t _ => Ends.faultFree_ok _ t) f

theorem execRead_ne_fault (n : Nat) (s : State) (f : Fault) : execRead n s ≠ .fault f :=
  runOp_ne_fault ((readReply_faultFree n s).bind fun _ t _ => Ends.faultFree_ok _ t) f

theorem exec_ne_fault (i : Instr) (s : State) (f : Fault) : exec i s ≠ .fault f := by
  cases i with
  | startCont | stopCont | setInterval _ | getReady | readMeas | setAsc _ | setFrc _ | setToffset _ | setAlt _
  | softReset | execCmd _ => exact execCommand_ne_fault _ s f
  | crc8 b0 b1 => exact runOp_ne_fault (Ends.faultFree_ok _ s) f
  | addChk w => exact runOp_ne_fault (Ends.faultFree_ok _ s) f
  | verChk b0 b1 c => exact execVerChk_ne_fault b0 b1 c s f
  | send id data => exact execSend_ne_fault id data s f
  | read n => exact execRead_ne_fault n s f
  | openDriver period => exact runOp_ne_fault (openSequence_faultFree period s) f
  | sampleDriver => exact runOp_ne_fault (sampleSequence_faultFree s) f
  | stopDriver => exact runOp_ne_fault (stopSequence_faultFree s) f

theorem hostReset_ne_fault (s : State) (f : Fault) : hostReset s ≠ .fault f := by
  unfold hostReset
  split <;> simp

theorem step_ne_fault (s : State) (f : Fault) : step s ≠ .fault f := by
  unfold step
  split
  · simp
  · exact hostReset_ne_fault _ f
  · split
    · exact exec_ne_fault _ _ f
    · simp

/-- Settles O52: the accessors fault past the written cells, and every part an operation is made of ends without a
fault (SEND and READ by their inversions, SAMPLE by the lengths of its replies). -/
theorem noOperationReadsUnwrittenScratch : Obligations.NoOperationReadsUnwrittenScratch :=
  ⟨fun _ _ => readRx_unwritten, fun _ => readTx_unwritten, fun _ => readW_unwritten, step_ne_fault⟩

end Sys2Proof.Machine

/-! # Outcome codes (spec/30_encoding.md R59) -/

namespace Sys2Proof.Machine

open Sys2Proof.Config (TransportError)

@[simp] theorem Returned.code_ok (v : Value) : (Returned.ok v).code = 0 := rfl
@[simp] theorem Returned.code_busWriteFailed (e : TransportError) : (Returned.err (.busWriteFailed e)).code = 1 := rfl
@[simp] theorem Returned.code_busReadFailed (e : TransportError) : (Returned.err (.busReadFailed e)).code = 2 := rfl
@[simp] theorem Returned.code_checksumMismatch (computed received : Byte) :
    (Returned.err (.checksumMismatch computed received)).code = 3 := rfl
@[simp] theorem Returned.code_invalidConfiguration (reason : ConfigReason) :
    (Returned.err (.invalidConfiguration reason)).code = 4 := rfl
@[simp] theorem Returned.code_notReady : (Returned.err .notReady).code = 5 := rfl

@[simp] theorem Refusal.code_preconditionViolation : Refusal.preconditionViolation.code = 6 := rfl

/-- PreconditionViolation has a code of its own; the last row of R59's table is every other refusal. -/
theorem Refusal.code_of_ne_preconditionViolation {r : Refusal} (h : r ≠ .preconditionViolation) : r.code = 7 := by
  cases r with
  | preconditionViolation => exact absurd rfl h
  | notModelled _ | wrongDriverState | requestWhileBusy | resetWhileBusy | undecodable _ => rfl

/-- Settles O7, row by row of R59's table; only its last row needs a case split, over the refusals. -/
theorem outcomeCodes : Obligations.OutcomeCodes :=
  ⟨Returned.code_ok, Returned.code_busWriteFailed, Returned.code_busReadFailed, Returned.code_checksumMismatch,
    Returned.code_invalidConfiguration, Returned.code_notReady, Refusal.code_preconditionViolation,
    fun _ => Refusal.code_of_ne_preconditionViolation⟩

end Sys2Proof.Machine

/-! # The Checksum Engine (spec/40_checksum.md R71 to R79) -/

namespace Sys2Proof.Machine

/-! ## The three forms of the checksum (R73) -/

/-- The checksum is two look-ups, which is R73's table form. -/
theorem crc8_eq_crc8Table (b0 b1 : Byte) : crc8 b0 b1 = crc8Table b0 b1 := by
  simp only [crc8, crcFrom, crcByte_eq_table, crc8Table]

/-- The first `n` bits of a byte, most significant first, each read where a left shift brings it to bit 7. -/
def leadingBits : Nat → Byte → List Bool
  | 0, _ => []
  | n + 1, b => b.getLsbD 7 :: leadingBits n (b <<< 1)

theorem leadingBits_crcWidth (b : Byte) : leadingBits Config.crcWidth b = bitsMsbFirst b := by
  simp [leadingBits, bitsMsbFirst, Config.crcWidth]

/-- A shift step of a register that holds the message bits not yet used, xored in, is a bit-serial step with the
first of them; the others move up by one. -/
theorem crcShift_xor_message (c b : Byte) :
    crcShift (c ^^^ b) = crcSerialBit c (b.getLsbD 7) ^^^ (b <<< 1) := by
  simp only [crcShift, crcSerialBit, BitVec.getLsbD_xor, BitVec.shiftLeft_xor_distrib]
  split
  · ac_rfl
  · rfl

/-- `n` shift steps use up `n` message bits; the bits left over stay xored in. -/
theorem crcShifts_xor_message (n : Nat) (c b : Byte) :
    crcShifts n (c ^^^ b) = (leadingBits n b).foldl crcSerialBit c ^^^ (b <<< n) := by
  induction n generalizing c b with
  | zero => simp [crcShifts, leadingBits]
  | succ n ih =>
    rw [crcShifts, crcShift_xor_message, ih, leadingBits, List.foldl_cons, ← BitVec.shiftLeft_add, Nat.add_comm 1 n]

/-- Eight bit-serial steps with the bits of `b` are one byte of R71's loop: no bit of `b` is left over. -/
theorem foldl_crcSerialBit_bitsMsbFirst (c b : Byte) : (bitsMsbFirst b).foldl crcSerialBit c = crcByte c b := by
  have hused : b <<< Config.crcWidth = 0#8 := BitVec.shiftLeft_eq_zero (Nat.le_refl 8)
  rw [crcByte, crcShifts_xor_message, leadingBits_crcWidth, hused, BitVec.xor_zero]

theorem crc8Serial_eq_crc8 (b0 b1 : Byte) : crc8Serial b0 b1 = crc8 b0 b1 := by
  simp only [crc8Serial, List.foldl_append, foldl_crcSerialBit_bitsMsbFirst, crc8, crcFrom]

/-- Settles O18: a bit-serial step is a shift step of the register with the rest of the message xored in, and a byte
of R71's loop is one look-up. -/
theorem threeFormsOfTheChecksumAgree : Obligations.ThreeFormsOfTheChecksumAgree :=
  fun b0 b1 => ⟨crc8Serial_eq_crc8 b0 b1, (crc8_eq_crc8Table b0 b1).symm⟩

/-! ## CRC8, ADDCHK and VERCHK on an idle block (R71, R75, R76) -/

section Idle

variable {s : State} (hs : s.busy = false)
include hs

theorem exec_crc8 (b0 b1 : Byte) : exec (.crc8 b0 b1) s = .next (s.returns (.ok (.byte (crc8 b0 b1)))) :=
  runOp_idle hs _

theorem exec_addChk (w : Word) :
    exec (.addChk w) s = .next (s.returns (.ok (.group (hi8 w) (lo8 w) (crc8 (hi8 w) (lo8 w))))) :=
  runOp_idle hs _

theorem exec_verChk_of_eq {b0 b1 c : Byte} (hc : crc8 b0 b1 = c) :
    exec (.verChk b0 b1 c) s = .next (s.returns (.ok (.word (be16 b0 b1)))) := by
  rw [exec, execVerChk, runOp_idle hs, if_pos hc, finish_ok]

theorem exec_verChk_of_ne {b0 b1 c : Byte} (hc : crc8 b0 b1 ≠ c) :
    exec (.verChk b0 b1 c) s = .next (s.returns (.err (.checksumMismatch (crc8 b0 b1) c))) := by
  rw [exec, execVerChk, runOp_idle hs, if_neg hc, finish_err]

end Idle

/-- Settles O16: the equation of each operation, VERCHK's by whether the checksums are equal. -/
theorem checksumOperationsArePure : Obligations.ChecksumOperationsArePure :=
  fun _ hs => ⟨exec_crc8 hs, exec_addChk hs, fun _ _ _ => exec_verChk_of_eq hs, fun _ _ _ => exec_verChk_of_ne hs⟩

/-! ## The round trip (R77) -/

/-- A word is its high byte followed by its low byte. -/
@[simp] theorem be16_hi8_lo8 (w : Word) : be16 (hi8 w) (lo8 w) = w := by
  rw [be16_eq_append]
  exact BitVec.extractLsb'_append_extractLsb' (w := 8) (len := 8)

/-- Settles O17: ADDCHK's group carries the checksum VERCHK computes, and its two data bytes make up the word. -/
theorem checksumRoundTrip : Obligations.ChecksumRoundTrip := by
  intro w s hs
  refine ⟨s.returns (.ok (.group (hi8 w) (lo8 w) (crc8 (hi8 w) (lo8 w)))), hi8 w, lo8 w, crc8 (hi8 w) (lo8 w),
    exec_addChk hs w, rfl, ?_⟩
  have hidle : (s.returns (.ok (.group (hi8 w) (lo8 w) (crc8 (hi8 w) (lo8 w))))).busy = false := hs
  rw [exec_verChk_of_eq hidle rfl, be16_hi8_lo8]
  rfl

end Sys2Proof.Machine

/-! # The Transport Framer (spec/41_framer.md R86 to R94) -/

namespace Sys2Proof.Machine

open Sys2Proof.Config (TransportError)

/-! ## The pure reading of a reply, group by group (R89) -/

theorem replyWords_eq_map (d : Delivery) (n : Nat) :
    replyWords d n = (List.range n).map fun i => be16 (byteAt d (3 * i)) (byteAt d (3 * i + 1)) := by
  simp only [replyWords, wordsFrom_eq_map, groupWord, Nat.zero_add]

theorem replyMismatches_eq_filterMap (d : Delivery) (n : Nat) :
    replyMismatches d n = (List.range n).filterMap fun i =>
      if crc8 (byteAt d (3 * i)) (byteAt d (3 * i + 1)) = byteAt d (3 * i + 2) then none
      else some ⟨crc8 (byteAt d (3 * i)) (byteAt d (3 * i + 1)), byteAt d (3 * i + 2)⟩ := by
  simp only [replyMismatches, mismatchesFrom_eq_filterMap, Nat.zero_add]

/-! ## The visible part of the states SEND and READ end in -/

theorem sendDone_returns_visible (id : Word) (data : Option Word) (r : BusResult Unit)
    (rest : List (Answer Delivery)) (s : State) (o : Returned) :
    ((sendDone id data r rest s).returns o).visible =
      (s.after [.write 0x61 (frameOf id data) r] [] rest o).visible := by
  rw [State.after, List.append_nil]
  rfl

theorem sendWaiting_hang_visible {s : State} (ht : s.transport = []) (id : Word) (data : Option Word) :
    (sendWaiting id data s).hang.visible = (s.stuckAfter [writePending (frameOf id data)] []).visible := by
  rw [State.stuckAfter, List.append_nil, ← ht]
  rfl

theorem readDone_returns_visible (n : Nat) (r : BusResult (List Byte)) (ms : List DiagEntry)
    (rest : List (Answer Delivery)) (s : State) (o : Returned) :
    ((readDone n r ms rest s).returns o).visible = (s.after [.read 0x61 (3 * n) r] ms rest o).visible := rfl

theorem readWaiting_hang_visible {s : State} (ht : s.transport = []) (n : Nat) :
    (readWaiting n s).hang.visible = (s.stuckAfter [readPending (3 * n)] []).visible := by
  rw [State.stuckAfter, List.append_nil, ← ht]
  rfl

/-! ## SEND and READ on an idle block (R86, R88) -/

section Idle

variable {s : State} (hs : s.busy = false)
include hs

theorem exec_send (id : Word) (data : Option Word) :
    exec (.send id data) s = finish ((sendFrame id data s).bind fun _ s => .ok .unit s) := by
  rw [exec, execSend, runOp_idle hs]

theorem exec_send_ok {d : Delivery} {rest : List (Answer Delivery)} (ht : s.transport = .ok d :: rest)
    (id : Word) (data : Option Word) :
    exec (.send id data) s = .next ((sendDone id data (.ok ()) rest s).returns (.ok .unit)) := by
  rw [exec_send hs, sendFrame_ok ht, Ends.bind_ok, finish_ok]

theorem exec_send_fail {e : TransportError} {rest : List (Answer Delivery)} (ht : s.transport = .fail e :: rest)
    (id : Word) (data : Option Word) :
    exec (.send id data) s = .next ((sendDone id data (.fail e) rest s).returns (.err (.busWriteFailed e))) := by
  rw [exec_send hs, sendFrame_fail ht, Ends.bind_err, finish_err]

theorem exec_send_silent (ht : s.transport = []) (id : Word) (data : Option Word) :
    exec (.send id data) s = .next (sendWaiting id data s).hang := by
  rw [exec_send hs, sendFrame_silent ht, Ends.bind_never, finish_never]

theorem exec_read (n : Nat) :
    exec (.read n) s = finish ((readReply n s).bind fun words s => .ok (.words words) s) := by
  rw [exec, execRead, runOp_idle hs]

theorem exec_read_refused {n : Nat} (hn : n < 1 ∨ 6 < n) : exec (.read n) s = .refused .preconditionViolation := by
  rw [exec_read hs, readReply_refused n hn, Ends.bind_refuse, finish_refuse]

theorem exec_read_silent {n : Nat} (hn : 1 ≤ n ∧ n ≤ 6) (ht : s.transport = []) :
    exec (.read n) s = .next (readWaiting n s).hang := by
  rw [exec_read hs, readReply_silent hn ht, Ends.bind_never, finish_never]

theorem exec_read_fail {n : Nat} {e : TransportError} {rest : List (Answer Delivery)} (hn : 1 ≤ n ∧ n ≤ 6)
    (ht : s.transport = .fail e :: rest) :
    exec (.read n) s = .next ((readDone n (.fail e) [] rest s).returns (.err (.busReadFailed e))) := by
  rw [exec_read hs, readReply_fail hn ht, Ends.bind_err, finish_err]

theorem exec_read_taken {n : Nat} {d : Delivery} {rest : List (Answer Delivery)} (hn : 1 ≤ n ∧ n ≤ 6)
    (ht : s.transport = .ok d :: rest) (hp : Taken s d n) :
    exec (.read n) s = .next ((readDone n (.ok (delivered d (3 * n))) (replyMismatches d n) rest s).returns
      (.ok (.words (replyWords d n)))) := by
  rw [exec_read hs, readReply_complete hn ht hp, Ends.bind_ok, finish_ok]

theorem exec_read_mismatch {n : Nat} {d : Delivery} {rest : List (Answer Delivery)} {m : DiagEntry}
    {ms : List DiagEntry} (hn : 1 ≤ n ∧ n ≤ 6) (ht : s.transport = .ok d :: rest) (hp : s.crcPolicy = .strict)
    (hm : replyMismatches d n = m :: ms) :
    exec (.read n) s = .next ((readDone n (.ok (delivered d (3 * n))) [m] rest s).returns
      (.err (.checksumMismatch m.computed m.received))) := by
  rw [exec_read hs, readReply_mismatch hn ht hp hm, Ends.bind_err, finish_err]

/-- Whatever the transport answers, a READ that is not refused makes one bus read and uses up one answer. -/
theorem exec_read_answered {n : Nat} {a : Answer Delivery} {rest : List (Answer Delivery)} (hn : 1 ≤ n ∧ n ≤ 6)
    (ht : s.transport = a :: rest) :
    ∃ r ms o, exec (.read n) s = .next ((readDone n r ms rest s).returns o) := by
  cases a with
  | fail e => exact ⟨_, _, _, exec_read_fail hs hn ht⟩
  | ok d =>
    cases hp : s.crcPolicy with
    | permissive => exact ⟨_, _, _, exec_read_taken hs hn ht (.inl hp)⟩
    | strict =>
      cases hm : replyMismatches d n with
      | nil => exact ⟨_, _, _, exec_read_taken hs hn ht (.inr hm)⟩
      | cons m ms => exact ⟨_, _, _, exec_read_mismatch hs hn ht hp hm⟩

theorem exec_read_not_refused {n : Nat} (hn : 1 ≤ n ∧ n ≤ 6) (r : Refusal) : exec (.read n) s ≠ .refused r := by
  cases ht : s.transport with
  | nil => rw [exec_read_silent hs hn ht]; nofun
  | cons a rest =>
    obtain ⟨_, _, _, h⟩ := exec_read_answered hs hn ht
    rw [h]; nofun

end Idle

/-! ## The obligations -/

/-- Settles O24: SEND has one equation for each thing the transport can do, and each ends in the state claimed up to
the buffers; while it hangs, `TX` holds the frame. -/
theorem sendMeaning : Obligations.SendMeaning := by
  intro s id data frame hs hframe
  have hf : frame = frameOf id data := by
    obtain ⟨rfl, rfl⟩ | ⟨d, rfl, rfl⟩ := hframe <;> rfl
  subst hf
  refine ⟨fun d rest ht => ?_, fun e rest ht => ?_, fun ht => ?_⟩
  · exact ⟨_, exec_send_ok hs ht id data, sendDone_returns_visible ..⟩
  · exact ⟨_, exec_send_fail hs ht id data, sendDone_returns_visible ..⟩
  · exact ⟨_, exec_send_silent hs ht id data, sendWaiting_hang_visible ht id data, rfl, rfl⟩

/-- Settles O25: a count outside 1 to 6 is refused before anything else, and inside no READ is refused. -/
theorem readPrecondition : Obligations.ReadPrecondition := by
  refine fun s n hs => ⟨exec_read_refused hs, fun h => ?_⟩
  by_contra hn
  exact exec_read_not_refused hs (by omega) _ h

/-- Settles O26: under the permissive policy every reply is taken whole, and the words and mismatches of a reply are
read off group by group. -/
theorem readPermissive : Obligations.ReadPermissive := by
  intro s n d rest hs hp h1 h6 ht
  rw [← replyMismatches_eq_filterMap, ← replyWords_eq_map]
  exact ⟨_, exec_read_taken hs ⟨h1, h6⟩ ht (.inl hp), readDone_returns_visible ..⟩

/-- Settles O28: a failed READ leaves the block idle with the rest of the answers, so that the retry is a READ on an
idle block like any other. -/
theorem readBusFailure : Obligations.ReadBusFailure := by
  intro s n hs h1 h6
  have hn : 1 ≤ n ∧ n ≤ 6 := ⟨h1, h6⟩
  refine ⟨fun e rest ht => ?_, fun ht => ⟨_, exec_read_silent hs hn ht, readWaiting_hang_visible ht n⟩⟩
  refine ⟨_, exec_read_fail hs hn ht, readDone_returns_visible .., fun a rest' hrest => ?_⟩
  obtain ⟨r, ms, o, hretry⟩ :=
    exec_read_answered (s := (readDone n (.fail e) [] rest s).returns (.err (.busReadFailed e))) hs hn hrest
  exact ⟨_, .read Config.devAddr (3 * n) r, hretry, rfl, rfl, rfl⟩

end Sys2Proof.Machine

/-! # The Command Table (spec/42_commands.md R100 to R114) -/

namespace Sys2Proof.Machine

open Sys2Proof.Config (TransportError)

/-- Settles O30: for each variant the three lookups are the rows of R101, R102 and R103 by definition, a boolean's
payload being R54's word. -/
theorem commandLookups : Obligations.CommandLookups := fun _ _ => rfl

/-! ## The frame of a command -/

/-- The frame EXEC writes: the command's identifier and payload (R114). -/
def commandFrame (cmd : Command) : List Byte := frameOf (commandId cmd) (payload cmd)

theorem commandFrame_short {cmd : Command} (h : payload cmd = none) :
    commandFrame cmd = [hi8 (commandId cmd), lo8 (commandId cmd)] := by
  rw [commandFrame, h]
  rfl

theorem commandFrame_long {cmd : Command} {x : Word} (h : payload cmd = some x) :
    commandFrame cmd = [hi8 (commandId cmd), lo8 (commandId cmd), hi8 x, lo8 x, crc8 (hi8 x) (lo8 x)] := by
  rw [commandFrame, h]
  rfl

/-- The frame of a command is the first transaction of its traffic, which `traffic` writes out for each instruction. -/
theorem eq_commandFrame_of_traffic {cmd : Command} {frame : List Byte} {tr : List Transaction}
    (h : .write frame :: tr = commandTraffic cmd) : frame = commandFrame cmd :=
  Transaction.write.inj (List.cons.inj h).1

/-! ## The visible part of the states a SEND with a READ after it ends in -/

theorem readDone_sendDone_returns_visible (id : Word) (data : Option Word) (n : Nat) (r : BusResult (List Byte))
    (ms : List DiagEntry) (rest rest' : List (Answer Delivery)) (s : State) (o : Returned) :
    ((readDone n r ms rest (sendDone id data (.ok ()) rest' s)).returns o).visible =
      (s.after [wrote (frameOf id data), .read 0x61 (3 * n) r] ms rest o).visible := by
  rw [State.after, List.append_cons]
  rfl

theorem readWaiting_sendDone_hang_visible (id : Word) (data : Option Word) (n : Nat) (s : State) :
    (readWaiting n (sendDone id data (.ok ()) [] s)).hang.visible =
      (s.stuckAfter [wrote (frameOf id data), readPending (3 * n)] []).visible := by
  rw [State.stuckAfter, List.append_cons, List.append_nil]
  rfl

/-! ## EXEC on an idle block (R114), one lemma for each thing the transport can do -/

section Idle

variable {s : State} {cmd : Command} {d0 d : Delivery} {e : TransportError} {rest : List (Answer Delivery)}
  (hs : s.busy = false)
include hs

theorem execCommand_idle (cmd : Command) :
    execCommand cmd s = finish ((issue cmd s).bind fun words s => .ok (replyValue cmd words) s) :=
  runOp_idle hs _

theorem execCommand_written (hw : expectedWords cmd = 0) (ht : s.transport = .ok d :: rest) :
    CompletesIn (execCommand cmd s) (s.after [wrote (commandFrame cmd)] [] rest (.ok .unit)) := by
  refine ⟨_, ?_, sendDone_returns_visible ..⟩
  rw [execCommand_idle hs, issue_written hw ht, Ends.bind_ok, finish_ok, replyValue, if_pos hw]

theorem execCommand_writeFailed (ht : s.transport = .fail e :: rest) :
    CompletesIn (execCommand cmd s)
      (s.after [writeFailed (commandFrame cmd) e] [] rest (.err (.busWriteFailed e))) := by
  refine ⟨_, ?_, sendDone_returns_visible ..⟩
  rw [execCommand_idle hs, issue_fail ht, Ends.bind_err, finish_err]

theorem execCommand_writePending (ht : s.transport = []) :
    CompletesIn (execCommand cmd s) (s.stuckAfter [writePending (commandFrame cmd)] []) := by
  refine ⟨_, ?_, sendWaiting_hang_visible ht ..⟩
  rw [execCommand_idle hs, issue_silent ht, Ends.bind_never, finish_never]

theorem execCommand_taken (hw : expectedWords cmd ≠ 0) (ht : s.transport = .ok d0 :: .ok d :: rest)
    (hp : Taken s d (expectedWords cmd)) :
    CompletesIn (execCommand cmd s)
      (s.after [wrote (commandFrame cmd), got (3 * expectedWords cmd) d] (replyMismatches d (expectedWords cmd)) rest
        (.ok (.words (replyWords d (expectedWords cmd))))) := by
  refine ⟨_, ?_, readDone_sendDone_returns_visible (rest' := .ok d :: rest) ..⟩
  rw [execCommand_idle hs, issue_taken hw ht hp, Ends.bind_ok, finish_ok, replyValue, if_neg hw]

theorem execCommand_mismatch {m : DiagEntry} {ms : List DiagEntry} (hw : expectedWords cmd ≠ 0)
    (ht : s.transport = .ok d0 :: .ok d :: rest) (hp : s.crcPolicy = .strict)
    (hm : replyMismatches d (expectedWords cmd) = m :: ms) :
    CompletesIn (execCommand cmd s)
      (s.after [wrote (commandFrame cmd), got (3 * expectedWords cmd) d] [m] rest
        (.err (.checksumMismatch m.computed m.received))) := by
  refine ⟨_, ?_, readDone_sendDone_returns_visible (rest' := .ok d :: rest) ..⟩
  rw [execCommand_idle hs, issue_mismatch hw ht hp hm, Ends.bind_err, finish_err]

theorem execCommand_readFailed (hw : expectedWords cmd ≠ 0) (ht : s.transport = .ok d0 :: .fail e :: rest) :
    CompletesIn (execCommand cmd s)
      (s.after [wrote (commandFrame cmd), readFailed (3 * expectedWords cmd) e] [] rest
        (.err (.busReadFailed e))) := by
  refine ⟨_, ?_, readDone_sendDone_returns_visible (rest' := .fail e :: rest) ..⟩
  rw [execCommand_idle hs, issue_readFail hw ht, Ends.bind_err, finish_err]

theorem execCommand_readPending (hw : expectedWords cmd ≠ 0) (ht : s.transport = [.ok d0]) :
    CompletesIn (execCommand cmd s)
      (s.stuckAfter [wrote (commandFrame cmd), readPending (3 * expectedWords cmd)] []) := by
  refine ⟨_, ?_, readWaiting_sendDone_hang_visible ..⟩
  rw [execCommand_idle hs, issue_readSilent hw ht, Ends.bind_never, finish_never]

end Idle

/-! ## The obligations -/

/-- Settles O34: both forms of the frame are the command's, and each clause is one thing the transport can do. -/
theorem execMeaning : Obligations.ExecMeaning := by
  intro s cmd frame hs hframe
  have hf : frame = commandFrame cmd := by
    obtain ⟨hp, rfl⟩ | ⟨x, hp, rfl⟩ := hframe
    · exact (commandFrame_short hp).symm
    · exact (commandFrame_long hp).symm
  subst hf
  exact ⟨fun _ _ => execCommand_written hs, fun _ _ _ => execCommand_taken hs, fun _ _ => execCommand_writeFailed hs,
    fun _ _ _ => execCommand_readFailed hs, fun _ _ _ _ _ ht hp hw => execCommand_mismatch hs hw ht hp,
    execCommand_writePending hs, fun _ => execCommand_readPending hs⟩

/-- Settles O32: each of the eight requests means EXEC of a command whose frame is the one written out and which has no
reply, so three of EXEC's ends are left. -/
theorem commandsWithoutReply : Obligations.CommandsWithoutReply := by
  intro s i frame hs hi
  obtain ⟨cmd, hexec, hw, rfl⟩ :
      ∃ cmd, exec i s = execCommand cmd s ∧ expectedWords cmd = 0 ∧ frame = commandFrame cmd := by
    obtain ⟨rfl, rfl⟩ | ⟨rfl, rfl⟩ | ⟨x, rfl, rfl⟩ | ⟨rfl, rfl⟩ | ⟨rfl, rfl⟩ | ⟨x, rfl, rfl⟩ | ⟨x, rfl, rfl⟩ |
      ⟨x, rfl, rfl⟩ | ⟨rfl, rfl⟩ := hi
    · exact ⟨.startContinuous, rfl, rfl, eq_commandFrame_of_traffic traffic_startCont⟩
    · exact ⟨.stopContinuous, rfl, rfl, eq_commandFrame_of_traffic traffic_stopCont⟩
    · exact ⟨.setContinuousInterval x, rfl, rfl, eq_commandFrame_of_traffic (traffic_setInterval x)⟩
    · exact ⟨.setAutomaticSelfCalibration true, rfl, rfl, eq_commandFrame_of_traffic (traffic_setAsc true)⟩
    · exact ⟨.setAutomaticSelfCalibration false, rfl, rfl, eq_commandFrame_of_traffic (traffic_setAsc false)⟩
    · exact ⟨.setForcedRecalibration x, rfl, rfl, eq_commandFrame_of_traffic (traffic_setFrc x)⟩
    · exact ⟨.setTemperatureOffset x, rfl, rfl, eq_commandFrame_of_traffic (traffic_setToffset x)⟩
    · exact ⟨.setAltitude x, rfl, rfl, eq_commandFrame_of_traffic (traffic_setAlt x)⟩
    · exact ⟨.softReset, rfl, rfl, eq_commandFrame_of_traffic traffic_softReset⟩
  rw [hexec]
  exact ⟨fun _ _ => execCommand_written hs hw, fun _ _ => execCommand_writeFailed hs, execCommand_writePending hs⟩

/-- Settles O33: both requests mean EXEC of a command whose frame and count are the ones written out; the count is not
0, so EXEC goes on to read. -/
theorem commandsWithReply : Obligations.CommandsWithReply := by
  intro s i frame n hs hi
  obtain ⟨cmd, hexec, hw, rfl, rfl⟩ :
      ∃ cmd, exec i s = execCommand cmd s ∧ expectedWords cmd ≠ 0 ∧ frame = commandFrame cmd ∧
        n = expectedWords cmd := by
    obtain ⟨rfl, rfl, rfl⟩ | ⟨rfl, rfl, rfl⟩ := hi
    · exact ⟨.getDataReady, rfl, Nat.one_ne_zero, eq_commandFrame_of_traffic traffic_getReady, rfl⟩
    · exact ⟨.readMeasurement, rfl, Nat.succ_ne_zero 5, eq_commandFrame_of_traffic traffic_readMeas, rfl⟩
  rw [hexec]
  exact ⟨fun _ _ _ => execCommand_taken hs hw, fun _ _ _ _ _ => execCommand_mismatch hs hw,
    fun _ _ => execCommand_writeFailed hs, fun _ _ _ => execCommand_readFailed hs hw, execCommand_writePending hs,
    fun _ => execCommand_readPending hs hw⟩

end Sys2Proof.Machine

/-! # The Device Driver (spec/43_driver.md R121 to R131) -/

namespace Sys2Proof.Machine

open Sys2Proof.Config (TransportError)

/-! ## The tests the sequences make -/

theorem guardRefuses_eq_false_iff {s : State} {needs : Bool} : guardRefuses s needs = false ↔ GuardPasses s needs := by
  unfold guardRefuses GuardPasses
  cases s.stateGuard <;> simp

theorem periodValid_iff {p : Nat} : periodValid p = true ↔ 2 ≤ p ∧ p ≤ 1800 := decide_eq_true_iff

/-! ## The frames the sequences write (R61) -/

theorem commandFrame_interval (x : Word) :
    commandFrame (.setContinuousInterval x) = [0x46, 0x00, hi8 x, lo8 x, crc8 (hi8 x) (lo8 x)] :=
  (eq_commandFrame_of_traffic (traffic_setInterval x)).symm

theorem commandFrame_start : commandFrame .startContinuous = [0x00, 0x10, 0x00, 0x00, 0x81] :=
  (eq_commandFrame_of_traffic traffic_startCont).symm

theorem commandFrame_stop : commandFrame .stopContinuous = [0x01, 0x04] :=
  (eq_commandFrame_of_traffic traffic_stopCont).symm

theorem commandFrame_getReady : commandFrame .getDataReady = [0x02, 0x02] :=
  (eq_commandFrame_of_traffic traffic_getReady).symm

theorem commandFrame_readMeas : commandFrame .readMeasurement = [0x03, 0x00] :=
  (eq_commandFrame_of_traffic traffic_readMeas).symm

/-! ## A SEND or a READ, then what follows it: the visible parts put together -/

theorem sendDone_after_visible (id : Word) (data : Option Word) (r : BusResult Unit)
    (rest rest' : List (Answer Delivery)) (s : State) (evs : List BusEvent) (ms : List DiagEntry) (o : Returned) :
    ((sendDone id data r rest s).after evs ms rest' o).visible =
      (s.after (.write 0x61 (frameOf id data) r :: evs) ms rest' o).visible := by
  rw [State.after, State.after, List.append_cons s.hist]
  rfl

theorem sendDone_stuckAfter_visible (id : Word) (data : Option Word) (r : BusResult Unit)
    (rest : List (Answer Delivery)) (s : State) (evs : List BusEvent) (ms : List DiagEntry) :
    ((sendDone id data r rest s).stuckAfter evs ms).visible =
      (s.stuckAfter (.write 0x61 (frameOf id data) r :: evs) ms).visible := by
  rw [State.stuckAfter, State.stuckAfter, List.append_cons s.hist]
  rfl

theorem readDone_after_visible (n : Nat) (r : BusResult (List Byte)) (ms ms' : List DiagEntry)
    (rest rest' : List (Answer Delivery)) (s : State) (evs : List BusEvent) (o : Returned) :
    ((readDone n r ms rest s).after evs ms' rest' o).visible =
      (s.after (.read 0x61 (3 * n) r :: evs) (ms ++ ms') rest' o).visible := by
  rw [State.after, State.after, List.append_cons s.hist, ← List.append_assoc s.diag]
  rfl

/-- CONT is no buffer: set alike in two states that look alike, they look alike still. -/
theorem setCont_visible_congr {s t : State} (h : s.visible = t.visible) (b : Bool) :
    (s.setCont b).visible = (t.setCont b).visible := congrArg (State.setCont · b) h

/-! ## Parts of operations that are not refused -/

theorem Ends.bind_ne_refuse {α β : Type} {m : Ends α} {k : α → State → Ends β} {r : Refusal} (hm : m ≠ .refuse r)
    (hk : ∀ v t, k v t ≠ .refuse r) : m.bind k ≠ .refuse r := by
  cases m with
  | ok v t => exact hk v t
  | err x t => nofun
  | never t => nofun
  | refuse r' => rintro ⟨⟩; exact hm rfl
  | fault f => nofun

theorem finish_ne_refused {m : Ends Value} {r : Refusal} (hm : m ≠ .refuse r) : finish m ≠ .refused r := by
  cases m with
  | ok v t => nofun
  | err x t => nofun
  | never t => nofun
  | refuse r' => rintro ⟨⟩; exact hm rfl
  | fault f => nofun

/-- EXEC is never refused: the counts it reads are legal (R114). -/
theorem issue_ne_refuse (cmd : Command) (s : State) (r : Refusal) : issue cmd s ≠ .refuse r := by
  obtain ⟨-, h⟩ | ⟨_, _, -, h⟩ | ⟨-, _, _, -, h⟩ | ⟨-, ⟨_, -, h⟩ | ⟨_, _, _, -, h⟩ | ⟨_, _, _, -, -, h⟩ |
    ⟨_, _, _, _, _, -, -, -, h⟩⟩ := issue_cases cmd s <;> rw [h] <;> nofun

/-! ## OPEN on an idle block whose guard lets it through (R122 to R124) -/

/-- The state after OPEN's interval frame, answered `ok`. -/
def intervalSent (p : Nat) (rest : List (Answer Delivery)) (s : State) : State :=
  sendDone (commandId (.setContinuousInterval (lowWord p))) (payload (.setContinuousInterval (lowWord p))) (.ok ()) rest s

section OpenDriver

variable {s : State} {p : Nat} {d d0 d1 : Delivery} {e : TransportError} {rest : List (Answer Delivery)}
  (hs : s.busy = false) (hg : GuardPasses s false)
include hs hg

theorem exec_open_outOfRange (hp : p < 2 ∨ 1800 < p) :
    exec (.openDriver p) s = .next (s.returns (.err (.invalidConfiguration (.periodOutOfRange p)))) := by
  have hv : ¬periodValid p = true := by rw [periodValid_iff]; omega
  rw [exec, execOpen, runOp_idle hs, openSequence, guardRefuses_eq_false_iff.mpr hg, if_neg Bool.false_ne_true,
    if_neg hv, finish_err]

variable (hp : 2 ≤ p ∧ p ≤ 1800)
include hp

theorem exec_open_inRange :
    exec (.openDriver p) s = finish ((issue (.setContinuousInterval (lowWord p)) s).bind fun _ s =>
      (issue .startContinuous s).bind fun _ s => .ok .unit (s.setCont true)) := by
  rw [exec, execOpen, runOp_idle hs, openSequence, guardRefuses_eq_false_iff.mpr hg, if_neg Bool.false_ne_true,
    if_pos (periodValid_iff.mpr hp)]

/-- Once the interval frame is written, only the start frame decides how OPEN ends. -/
theorem exec_open_intervalSent (ht : s.transport = .ok d :: rest) :
    exec (.openDriver p) s = finish ((issue .startContinuous (intervalSent p rest s)).bind fun _ s =>
      .ok .unit (s.setCont true)) := by
  rw [exec_open_inRange hs hg hp, issue_written rfl ht, Ends.bind_ok, intervalSent]

theorem exec_open_intervalFailed (ht : s.transport = .fail e :: rest) :
    CompletesIn (exec (.openDriver p) s)
      (s.after [writeFailed (commandFrame (.setContinuousInterval (lowWord p))) e] [] rest
        (.err (.busWriteFailed e))) := by
  refine ⟨_, ?_, sendDone_returns_visible ..⟩
  rw [exec_open_inRange hs hg hp, issue_fail ht, Ends.bind_err, finish_err]

theorem exec_open_intervalPending (ht : s.transport = []) :
    CompletesIn (exec (.openDriver p) s)
      (s.stuckAfter [writePending (commandFrame (.setContinuousInterval (lowWord p)))] []) := by
  refine ⟨_, ?_, sendWaiting_hang_visible ht ..⟩
  rw [exec_open_inRange hs hg hp, issue_silent ht, Ends.bind_never, finish_never]

theorem exec_open_startFailed (ht : s.transport = .ok d :: .fail e :: rest) :
    exec (.openDriver p) s =
      .next ((sendDone (commandId .startContinuous) (payload .startContinuous) (.fail e) rest
        (intervalSent p (.fail e :: rest) s)).returns (.err (.busWriteFailed e))) := by
  rw [exec_open_intervalSent hs hg hp ht, issue_fail (rest := rest) rfl, Ends.bind_err, finish_err]

theorem exec_open_startPending (ht : s.transport = [.ok d]) :
    CompletesIn (exec (.openDriver p) s)
      (s.stuckAfter [wrote (commandFrame (.setContinuousInterval (lowWord p))),
        writePending (commandFrame .startContinuous)] []) := by
  refine ⟨_, ?_, (sendWaiting_hang_visible rfl ..).trans (sendDone_stuckAfter_visible ..)⟩
  rw [exec_open_intervalSent hs hg hp ht, issue_silent rfl, Ends.bind_never, finish_never, intervalSent]

/-- Both frames written, OPEN sets CONT, the only difference from two SENDs. -/
theorem exec_open_completes (ht : s.transport = .ok d0 :: .ok d1 :: rest) :
    CompletesIn (exec (.openDriver p) s)
      ((s.after [wrote (commandFrame (.setContinuousInterval (lowWord p))), wrote (commandFrame .startContinuous)] []
        rest (.ok .unit)).setCont true) := by
  have hvisible := (sendDone_returns_visible (commandId .startContinuous) (payload .startContinuous) (.ok ()) rest
    (intervalSent p (.ok d1 :: rest) s) (.ok .unit)).trans (sendDone_after_visible ..)
  refine ⟨_, ?_, setCont_visible_congr hvisible true⟩
  rw [exec_open_intervalSent hs hg hp ht, issue_written (rest := rest) rfl rfl, Ends.bind_ok, finish_ok]
  rfl

end OpenDriver

/-! ## SAMPLE on an idle block whose guard lets it through (R125 to R129) -/

/-- The end of SAMPLE: what it makes of the measurement's words (R128). -/
def measured (m : List Word) (s : State) : Ends Value :=
  match sampleOf m with
  | some x => .ok (.sample x) s
  | none => .fault .unwrittenScratch

/-- Two words of two bytes each are the four bytes in order. -/
theorem be32_be16 (b0 b1 b2 b3 : Byte) : be32 (be16 b0 b1) (be16 b2 b3) = b0 ++ b1 ++ b2 ++ b3 := by
  rw [be32_eq_append, be16_eq_append, be16_eq_append]
  exact (BitVec.append_assoc (x₁ := b0 ++ b1) (x₂ := b2) (x₃ := b3)).symm

/-- The data bytes of the six groups are the three values, in document order (R128). -/
theorem measured_replyWords (d : Delivery) (s : State) :
    measured (replyWords d 6) s = .ok (.sample
      { co2 := byteAt d 0 ++ byteAt d 1 ++ byteAt d 3 ++ byteAt d 4
        temperature := byteAt d 6 ++ byteAt d 7 ++ byteAt d 9 ++ byteAt d 10
        humidity := byteAt d 12 ++ byteAt d 13 ++ byteAt d 15 ++ byteAt d 16 }) s := by
  simp only [← be32_be16]
  rfl

/-- The ready word of a reply whose data bytes are 00 01 (R126). -/
theorem replyWords_ready {d : Delivery} (h0 : byteAt d 0 = 0x00) (h1 : byteAt d 1 = 0x01) :
    replyWords d 1 = [Config.ready] := by
  show [be16 (byteAt d 0) (byteAt d 1)] = [Config.ready]
  rw [h0, h1]
  decide

theorem exec_sample_idle {s : State} (hs : s.busy = false) : exec .sampleDriver s = finish (sampleSequence s) :=
  runOp_idle hs _

/-- With a ready word of 1, only the measurement command decides how SAMPLE ends. -/
theorem sampleSequence_ready {s t : State} (hg : GuardPasses s true) (h : issue .getDataReady s = .ok [Config.ready] t) :
    sampleSequence s = (issue .readMeasurement t).bind measured := by
  rw [sampleSequence, guardRefuses_eq_false_iff.mpr hg, if_neg Bool.false_ne_true, h]
  rfl

theorem exec_sample_measured {s t u : State} {m : List Word} (hs : s.busy = false) (hg : GuardPasses s true)
    (h : issue .getDataReady s = .ok [Config.ready] t) (hm : issue .readMeasurement t = .ok m u) :
    exec .sampleDriver s = finish (measured m u) := by
  rw [exec_sample_idle hs, sampleSequence_ready hg h, hm, Ends.bind_ok]

theorem sampleSequence_ne_refuse {s : State} (hg : GuardPasses s true) (r : Refusal) : sampleSequence s ≠ .refuse r := by
  rw [sampleSequence, guardRefuses_eq_false_iff.mpr hg, if_neg Bool.false_ne_true]
  refine Ends.bind_ne_refuse (issue_ne_refuse _ _ r) fun v t => ?_
  split
  · nofun
  · split
    · refine Ends.bind_ne_refuse (issue_ne_refuse _ _ r) fun m u => ?_
      split <;> nofun
    · nofun

/-! ## STOP on an idle block whose guard lets it through (R130, R131) -/

section StopDriver

variable {s : State} {d : Delivery} {e : TransportError} {rest : List (Answer Delivery)}
  (hs : s.busy = false) (hg : GuardPasses s true)
include hs hg

theorem exec_stop_passed :
    exec .stopDriver s = finish ((issue .stopContinuous s).bind fun _ s => .ok .unit (s.setCont false)) := by
  rw [exec, execStop, runOp_idle hs, stopSequence, guardRefuses_eq_false_iff.mpr hg, if_neg Bool.false_ne_true]

theorem exec_stop_failed (ht : s.transport = .fail e :: rest) :
    exec .stopDriver s =
      .next ((sendDone (commandId .stopContinuous) (payload .stopContinuous) (.fail e) rest s).returns
        (.err (.busWriteFailed e))) := by
  rw [exec_stop_passed hs hg, issue_fail ht, Ends.bind_err, finish_err]

theorem exec_stop_completes (ht : s.transport = .ok d :: rest) :
    CompletesIn (exec .stopDriver s)
      ((s.after [wrote (commandFrame .stopContinuous)] [] rest (.ok .unit)).setCont false) := by
  have hvisible := sendDone_returns_visible (commandId .stopContinuous) (payload .stopContinuous) (.ok ()) rest s
    (.ok .unit)
  refine ⟨_, ?_, setCont_visible_congr hvisible false⟩
  rw [exec_stop_passed hs hg, issue_written rfl ht, Ends.bind_ok, finish_ok]
  rfl

theorem exec_stop_ne_refused (r : Refusal) : exec .stopDriver s ≠ .refused r := by
  rw [exec_stop_passed hs hg]
  exact finish_ne_refused (Ends.bind_ne_refuse (issue_ne_refuse _ _ r) fun _ _ => nofun)

theorem exec_sample_ne_refused (r : Refusal) : exec .sampleDriver s ≠ .refused r := by
  rw [exec_sample_idle hs]
  exact finish_ne_refused (sampleSequence_ne_refuse hg r)

end StopDriver

/-! ## The obligations -/

/-- Settles O38: the period is tested as a number, and outside the bounds OPEN ends there. -/
theorem openRejectsPeriod : Obligations.OpenRejectsPeriod := fun _ _ hs hg hp => exec_open_outOfRange hs hg hp

/-- Settles O39: one clause for each thing the transport can do short of answering both frames. A failed OPEN leaves
the block idle with CONT as it was, so that the retry is an OPEN like any other. -/
theorem failedOpenUndoesNothing : Obligations.FailedOpenUndoesNothing := by
  intro s p frame start hs hg h2 h1800 hframe hstart
  obtain rfl : frame = commandFrame (.setContinuousInterval (lowWord p)) :=
    hframe.trans (commandFrame_interval (lowWord p)).symm
  obtain rfl : start = commandFrame .startContinuous := hstart.trans commandFrame_start.symm
  have hp : 2 ≤ p ∧ p ≤ 1800 := ⟨h2, h1800⟩
  refine ⟨fun _ _ => exec_open_intervalFailed hs hg hp, fun d e rest ht => ?_, exec_open_intervalPending hs hg hp,
    fun _ => exec_open_startPending hs hg hp⟩
  refine ⟨_, exec_open_startFailed hs hg hp ht, ?_, fun d0 d1 rest' hrest => exec_open_completes hs hg hp hrest⟩
  exact (sendDone_returns_visible ..).trans (sendDone_after_visible ..)

/-- Settles O40: the first reply is the ready word, so SAMPLE goes on to the measurement, whose six words are the three
values; the transactions and mismatches of the two commands follow each other. -/
theorem sampleReady : Obligations.SampleReady := by
  intro s d0 d1 d2 d3 rest hs hg ht hp1 hp3 h0 h1
  have hready := issue_taken (cmd := .getDataReady) Nat.one_ne_zero ht hp1
  rw [show expectedWords .getDataReady = 1 from rfl, replyWords_ready h0 h1] at hready
  rw [← commandFrame_getReady, ← commandFrame_readMeas]
  have hexec := exec_sample_measured hs hg hready
    (issue_taken (cmd := .readMeasurement) (rest := rest) (Nat.succ_ne_zero 5) rfl hp3)
  refine ⟨_, hexec.trans (congrArg finish (measured_replyWords d3 _)), ?_⟩
  exact (readDone_sendDone_returns_visible ..).trans
    ((readDone_after_visible ..).trans (sendDone_after_visible ..))

/-- Settles O45: a failed STOP leaves the block idle with CONT as it was, so that the guard lets SAMPLE and STOP
through as before, and the retry is a STOP like any other. -/
theorem failedStopChangesNothing : Obligations.FailedStopChangesNothing := by
  intro s e rest hs hg ht
  rw [← commandFrame_stop]
  refine ⟨_, exec_stop_failed hs hg ht, sendDone_returns_visible .., fun d rest' hrest => ?_, ?_, ?_⟩
  · exact exec_stop_completes hs hg hrest
  · refine exec_sample_ne_refused ?_ ?_ _
    exacts [hs, hg]
  · refine exec_stop_ne_refused ?_ ?_ _
    exacts [hs, hg]

end Sys2Proof.Machine

/-! # How an operation ends (spec/60_exceptions.md R140) -/

namespace Sys2Proof.Machine

/-! ## Parts of operations leave the telling of the outcome to `finish` -/

/-- Begun in `s`, the part of an operation has told the host nothing and has not made the block busy. -/
def Ends.Untold {α : Type} (s : State) : Ends α → Prop
  | .ok _ t | .err _ t | .never t => t.busy = s.busy ∧ t.results = s.results
  | .refuse _ | .fault _ => True

section Untold

variable {α : Type} {s : State} {m : Ends α}

theorem Runs.untold {tr : List Transaction} (h : Runs s tr m) : m.Untold s := by
  cases m with
  | ok v t => obtain ⟨_, _, hmove, -⟩ := h; exact ⟨hmove.busy, hmove.results⟩
  | err x t => obtain ⟨_, _, hmove, -⟩ := h; exact ⟨hmove.busy, hmove.results⟩
  | never t => obtain ⟨_, _, _, hmove, -⟩ := h; exact ⟨hmove.busy, hmove.results⟩
  | refuse r => trivial
  | fault f => trivial

/-- The driver's flag is neither the host's record nor the mark of a hang. -/
theorem Ends.Untold.setCont (h : m.Untold s) (b : Bool) : (m.bind fun v t => .ok v (t.setCont b)).Untold s := by
  cases m <;> exact h

end Untold

/-- Every operation of an idle block is such a part, and then `finish`: EXEC, SEND, READ and SAMPLE by their traffic,
OPEN and STOP by theirs and the flag, the checksum operations because they keep the state. -/
theorem exec_eq_finish_untold (i : Instr) {s : State} (hs : s.busy = false) :
    ∃ m : Ends Value, exec i s = finish m ∧ m.Untold s := by
  cases i with
  | startCont | stopCont | setInterval _ | getReady | readMeas | setAsc _ | setFrc _ | setToffset _ | setAlt _
  | softReset | execCmd _ => exact ⟨_, execCommand_idle hs _, ((issue_runs _ s).mapV (replyValue _)).untold⟩
  | crc8 b0 b1 => exact ⟨.ok _ s, exec_crc8 hs b0 b1, rfl, rfl⟩
  | addChk w => exact ⟨.ok _ s, exec_addChk hs w, rfl, rfl⟩
  | verChk b0 b1 c =>
    by_cases hc : crc8 b0 b1 = c
    · exact ⟨.ok _ s, exec_verChk_of_eq hs hc, rfl, rfl⟩
    · exact ⟨.err _ s, exec_verChk_of_ne hs hc, rfl, rfl⟩
  | send id data => exact ⟨_, exec_send hs id data, ((sendFrame_runs id data s).mapV fun _ => Value.unit).untold⟩
  | read n => exact ⟨_, exec_read hs n, ((readReply_runs n s).mapV Value.words).untold⟩
  | openDriver period =>
    obtain ⟨m, hruns, hopen, -⟩ := openSequence_runs period s
    exact ⟨_, (runOp_idle hs (openSequence period)).trans (congrArg finish hopen), hruns.untold.setCont true⟩
  | sampleDriver => exact ⟨_, exec_sample_idle hs, (sampleSequence_runs s).untold⟩
  | stopDriver =>
    obtain ⟨m, hruns, hstop, -⟩ := stopSequence_runs s
    exact ⟨_, (runOp_idle hs stopSequence).trans (congrArg finish hstop), hruns.untold.setCont false⟩

/-- Settles O49: `finish` tells the host one outcome, or marks the hang, or refuses; before it the block is still idle
and the host untold, and no operation ends in a fault. -/
theorem everyOperationEndsOnce : Obligations.EveryOperationEndsOnce := by
  intro i s hs
  obtain ⟨m, hexec, hm⟩ := exec_eq_finish_untold i hs
  cases m with
  | ok v t =>
    obtain ⟨hbusy, hresults⟩ := hm
    exact .inl ⟨_, .ok v, hexec, hbusy.trans hs, by rw [State.returns_results, hresults]⟩
  | err x t =>
    obtain ⟨hbusy, hresults⟩ := hm
    exact .inl ⟨_, .err x, hexec, hbusy.trans hs, by rw [State.returns_results, hresults]⟩
  | never t =>
    obtain ⟨-, hresults⟩ := hm
    exact .inr (.inl ⟨_, hexec, rfl, hresults⟩)
  | refuse r => exact .inr (.inr ⟨r, hexec⟩)
  | fault f => exact absurd hexec (exec_ne_fault i s f)

end Sys2Proof.Machine

/-! # Reset and hazards (spec/70_reset_and_hazards.md R172, R173, R184) -/

namespace Sys2Proof.Machine

/-! ## A busy block takes up nothing (R172, R184) -/

/-- `runOp` is the one gate: whatever an operation does, it does it through there. -/
theorem exec_eq_runOp (i : Instr) : ∃ body, ∀ s, exec i s = runOp s body := by
  cases i <;> exact ⟨_, fun _ => rfl⟩

theorem exec_busy (i : Instr) {s : State} (hs : s.busy = true) : exec i s = .refused .requestWhileBusy := by
  obtain ⟨body, hbody⟩ := exec_eq_runOp i
  rw [hbody, runOp_busy hs]

theorem idle_of_exec_next {i : Instr} {s t : State} (h : exec i s = .next t) : s.busy = false := by
  refine Bool.eq_false_of_not_eq_true fun hs => ?_
  rw [exec_busy i hs] at h
  cases h

theorem hostReset_busy {s : State} (hs : s.busy = true) : hostReset s = .refused .resetWhileBusy := if_pos hs

/-- Settles O13: the first thing a reset looks at is whether an operation is in progress. -/
theorem resetDuringAnOperationIsRefused : Obligations.ResetDuringAnOperationIsRefused := fun _ => hostReset_busy

/-- Settles O15: every operation goes through `runOp`, which refuses while the block is busy. -/
theorem overlappingRequestIsRefused : Obligations.OverlappingRequestIsRefused := fun i _ => exec_busy i

/-! ## SOFT_RESET is one write and nothing else (R173) -/

theorem commandFrame_softReset : commandFrame .softReset = [0xD3, 0x04] :=
  (eq_commandFrame_of_traffic traffic_softReset).symm

/-- A command without reply, whether its write succeeds, fails or is never answered: the history grows by that write;
the flag, the mismatches, the parameters and the host's list are kept. -/
theorem execCommand_withoutReply_keeps {cmd : Command} {s t : State} (hs : s.busy = false)
    (hw : expectedWords cmd = 0) (h : execCommand cmd s = .next t) :
    t.cont = s.cont ∧ t.diag = s.diag ∧ t.crcPolicy = s.crcPolicy ∧ t.stateGuard = s.stateGuard ∧
      t.inbox = s.inbox ∧ ∃ r, t.hist = s.hist ++ [.write 0x61 (commandFrame cmd) r] := by
  rw [execCommand_idle hs] at h
  match ht : s.transport with
  | [] =>
    rw [issue_silent ht] at h
    cases h
    exact ⟨rfl, rfl, rfl, rfl, rfl, .pending, rfl⟩
  | .fail e :: _ =>
    rw [issue_fail ht] at h
    cases h
    exact ⟨rfl, rfl, rfl, rfl, rfl, .fail e, rfl⟩
  | .ok _ :: _ =>
    rw [issue_written hw ht] at h
    cases h
    exact ⟨rfl, rfl, rfl, rfl, rfl, .ok (), rfl⟩

/-- Settles O36: SOFT_RESET is EXEC of a command without reply whose frame is `D3 04`, and a block that carries it out
was idle. -/
theorem softResetIsNotAReset : Obligations.SoftResetIsNotAReset := by
  intro s t h
  rw [← commandFrame_softReset]
  exact execCommand_withoutReply_keeps (idle_of_exec_next h) rfl h

end Sys2Proof.Machine

/-! # Encoding (spec/30_encoding.md R50 to R61) -/

namespace Sys2Proof.Machine

/-! ## Words and their bytes (R37) -/

@[simp] theorem hi8_be16 (b0 b1 : Byte) : hi8 (be16 b0 b1) = b0 := by
  rw [be16_eq_append]
  exact BitVec.extractLsb'_append_eq_left

@[simp] theorem lo8_be16 (b0 b1 : Byte) : lo8 (be16 b0 b1) = b1 := by
  rw [be16_eq_append]
  exact BitVec.extractLsb'_append_eq_right

@[simp] theorem wordBytes_be16 (b0 b1 : Byte) : wordBytes (be16 b0 b1) = [b0, b1] := by
  rw [wordBytes, hi8_be16, lo8_be16]

/-- Settles O6: both assemblies are concatenations, and `hi8` and `lo8` take a concatenation apart. -/
theorem bigEndianAssembly : Obligations.BigEndianAssembly :=
  ⟨be16_hi8_lo8, fun b0 b1 => ⟨hi8_be16 b0 b1, lo8_be16 b0 b1⟩, be32_be16⟩

/-- Settles O31: two variants have the same identifier only if they are one variant, and then the payload is the
variant's operand. -/
theorem commandIdentifiersAreDistinct : Obligations.CommandIdentifiersAreDistinct := by
  intro c c' hid
  cases c with
  | setAutomaticSelfCalibration b =>
    cases c' with
    | setAutomaticSelfCalibration b' => exact ⟨rfl, by revert b b'; decide⟩
    | _ => simp [commandId] at hid
  | _ => cases c' <;> simp_all [commandId, commandSelect, payload]

/-! ## Decoding what was encoded -/

theorem decode_frameRequest_short {cmd : Command} (h : payload cmd = none) :
    decode (frameRequest cmd) = decodeShort (commandId cmd) := by
  simp [frameRequest, h, decode, frameOf, wordBytes, decodeFrame]

theorem decode_frameRequest_long {cmd : Command} {d : Word} (h : payload cmd = some d) :
    decode (frameRequest cmd) = decodeLong (commandId cmd) d (crc8 (hi8 d) (lo8 d)) := by
  simp [frameRequest, h, decode, frameOf, wordBytes, groupOf, decodeFrame]

theorem decodeCommand_commandOperand (sel : Byte) (cmd : Command) :
    decodeCommand sel (commandSelect cmd :: commandOperand cmd) = .ok cmd := by
  cases cmd with
  | setAutomaticSelfCalibration b => cases b <;> rfl
  | setContinuousInterval x | setForcedRecalibration x | setTemperatureOffset x | setAltitude x =>
    simp [decodeCommand, commandSelect, commandOperand, wordBytes, decodeU16]
  | _ => rfl

/-- Settles O1: a frame is decoded by its identifier, which no two commands share; a host request by its select code
and the shape of its operands. -/
theorem decodeUndoesEncode : Obligations.DecodeUndoesEncode := by
  intro i
  cases i with
  | stopCont | getReady | readMeas | softReset => exact decode_frameRequest_short rfl
  | setInterval x | setFrc x | setToffset x | setAlt x =>
    rw [encode, decode_frameRequest_long rfl]
    simp [commandId, decodeLong]
  | startCont =>
    have hchecksum : crc8 (hi8 0#16) (lo8 0#16) = 0x81#8 := by decide +kernel
    rw [encode, decode_frameRequest_long rfl]
    simp [commandId, decodeLong, hchecksum]
  | setAsc b =>
    rw [encode, decode_frameRequest_long rfl]
    cases b <;> rfl
  | crc8 b0 b1 | verChk b0 b1 c => rfl
  | addChk w => exact congrArg (Except.ok ∘ Instr.addChk) (be16_hi8_lo8 w)
  | send id data =>
    cases data with
    | none => exact congrArg (fun w => Except.ok (Instr.send w none)) (be16_hi8_lo8 id)
    | some d => exact congrArg₂ (fun w x => Except.ok (Instr.send w (some x))) (be16_hi8_lo8 id) (be16_hi8_lo8 d)
  | read n => exact congrArg (Except.map Instr.read) (decodeNat_natBytes 4 n)
  | execCmd cmd => exact congrArg (Except.map Instr.execCmd) (decodeCommand_commandOperand 5 cmd)
  | openDriver period => exact congrArg (Except.map Instr.openDriver) (decodeNat_natBytes 6 period)
  | sampleDriver | stopDriver => rfl

/-! ## Encoding what was decoded -/

/-- A frame without payload: each branch of the decoder that accepts fixes the identifier. -/
theorem encode_of_decodeShort {id : Word} {i : Instr} (h : decodeShort id = .ok i) :
    encode i = ⟨.short, wordBytes id⟩ := by
  simp only [decodeShort] at h
  repeat' split at h
  all_goals cases h
  all_goals subst_vars; rfl

/-- A frame with payload: each branch that accepts fixes the identifier, and the frame is encoded with its own checksum,
whatever its last byte was. -/
theorem encode_of_decodeLong {id d : Word} {c : Byte} {i : Instr} (h : decodeLong id d c = .ok i) :
    encode i = ⟨.long, wordBytes id ++ groupOf d⟩ := by
  simp only [decodeLong] at h
  repeat' split at h
  all_goals cases h
  all_goals subst_vars; rfl

section

variable {sel : Byte} {bs : List Byte} {cmd cmd' : Command} {i j : Instr}

theorem nil_of_decodeBare (h : decodeBare sel cmd bs = .ok cmd') : cmd = cmd' ∧ [] = bs := by
  match bs, h with
  | [], h => exact ⟨Except.ok.inj h, rfl⟩

theorem wordBytes_of_decodeU16 {mk : Word → Command} (h : decodeU16 sel mk bs = .ok cmd) :
    ∃ x, mk x = cmd ∧ wordBytes x = bs := by
  match bs, h with
  | [hi, lo], h => exact ⟨be16 hi lo, Except.ok.inj h, wordBytes_be16 hi lo⟩

theorem bit_of_decodeBool {mk : Bool → Command} (h : decodeBool sel mk bs = .ok cmd) :
    ∃ b : Bool, mk b = cmd ∧ [if b then 1 else 0] = bs := by
  match bs, h with
  | [b], h =>
    simp only [decodeBool] at h
    split at h
    · subst b; exact ⟨false, Except.ok.inj h, rfl⟩
    split at h
    · subst b; exact ⟨true, Except.ok.inj h, rfl⟩
    · cases h

/-- A command in an EXEC, by the ten codes it may have. -/
theorem operand_of_decodeCommand (h : decodeCommand sel bs = .ok cmd) :
    commandSelect cmd :: commandOperand cmd = bs := by
  match bs, h with
  | code :: ops, h =>
    simp only [decodeCommand] at h
    split at h
    · obtain ⟨rfl, rfl⟩ := nil_of_decodeBare h; subst code; rfl
    split at h
    · obtain ⟨rfl, rfl⟩ := nil_of_decodeBare h; subst code; rfl
    split at h
    · obtain ⟨x, rfl, rfl⟩ := wordBytes_of_decodeU16 h; subst code; rfl
    split at h
    · obtain ⟨rfl, rfl⟩ := nil_of_decodeBare h; subst code; rfl
    split at h
    · obtain ⟨rfl, rfl⟩ := nil_of_decodeBare h; subst code; rfl
    split at h
    · obtain ⟨b, rfl, rfl⟩ := bit_of_decodeBool h; subst code; rfl
    split at h
    · obtain ⟨x, rfl, rfl⟩ := wordBytes_of_decodeU16 h; subst code; rfl
    split at h
    · obtain ⟨x, rfl, rfl⟩ := wordBytes_of_decodeU16 h; subst code; rfl
    split at h
    · obtain ⟨x, rfl, rfl⟩ := wordBytes_of_decodeU16 h; subst code; rfl
    split at h
    · obtain ⟨rfl, rfl⟩ := nil_of_decodeBare h; subst code; rfl
    · cases h

theorem encode_of_decodeCrc8 (h : decodeCrc8 sel bs = .ok i) : encode i = hostRequest 0 bs := by
  match bs, h with
  | [b0, b1], h => cases h; rfl

theorem encode_of_decodeAddChk (h : decodeAddChk sel bs = .ok i) : encode i = hostRequest 1 bs := by
  match bs, h with
  | [hi, lo], h => cases h; rw [encode, wordBytes_be16]

theorem encode_of_decodeVerChk (h : decodeVerChk sel bs = .ok i) : encode i = hostRequest 2 bs := by
  match bs, h with
  | [b0, b1, c], h => cases h; rfl

theorem encode_of_decodeSend (h : decodeSend sel bs = .ok i) : encode i = hostRequest 3 bs := by
  match bs, h with
  | [hi, lo], h => cases h; rw [encode, wordBytes_be16]
  | [hi, lo, dhi, dlo], h => cases h; rw [encode, wordBytes_be16, wordBytes_be16]; rfl

theorem natBytes_of_map_decodeNat {mk : Nat → Instr} (h : (decodeNat sel bs).map mk = .ok i) :
    ∃ n, mk n = i ∧ natBytes n = bs := by
  cases hn : decodeNat sel bs with
  | error why => rw [hn] at h; cases h
  | ok n => rw [hn] at h; exact ⟨n, Except.ok.inj h, natBytes_of_decodeNat hn⟩

theorem encode_of_decodeExec (h : (decodeCommand sel bs).map .execCmd = .ok i) : encode i = hostRequest 5 bs := by
  cases hcmd : decodeCommand sel bs with
  | error why => rw [hcmd] at h; cases h
  | ok cmd => rw [hcmd] at h; cases h; rw [encode, operand_of_decodeCommand hcmd]

theorem nil_of_decodeNone (h : decodeNone sel i bs = .ok j) : i = j ∧ [] = bs := by
  match bs, h with
  | [], h => exact ⟨Except.ok.inj h, rfl⟩

/-- A host request, by the nine select codes it may have. -/
theorem encode_of_decodeHost (h : decodeHost bs = .ok i) : encode i = ⟨.host, bs⟩ := by
  match bs, h with
  | sel :: ops, h =>
    simp only [decodeHost] at h
    split at h
    · subst sel; exact encode_of_decodeCrc8 h
    split at h
    · subst sel; exact encode_of_decodeAddChk h
    split at h
    · subst sel; exact encode_of_decodeVerChk h
    split at h
    · subst sel; exact encode_of_decodeSend h
    split at h
    · obtain ⟨n, rfl, rfl⟩ := natBytes_of_map_decodeNat h; subst sel; rfl
    split at h
    · subst sel; exact encode_of_decodeExec h
    split at h
    · obtain ⟨n, rfl, rfl⟩ := natBytes_of_map_decodeNat h; subst sel; rfl
    split at h
    · obtain ⟨rfl, rfl⟩ := nil_of_decodeNone h; subst sel; rfl
    split at h
    · obtain ⟨rfl, rfl⟩ := nil_of_decodeNone h; subst sel; rfl
    split at h <;> cases h

end

/-- Settles O2: a request is the encoding of what it decodes to because each row of the decoder leaves one request, but
for a format L frame's last byte, which the encoding computes as `Request.sealed` does. -/
theorem encodeUndoesDecode : Obligations.EncodeUndoesDecode := by
  intro r i h
  obtain ⟨format, bytes⟩ := r
  cases format with
  | short =>
    match bytes, h with
    | [hi, lo], h => rw [encode_of_decodeShort h, wordBytes_be16]; rfl
  | long =>
    match bytes, h with
    | [hi, lo, dhi, dlo, c], h =>
      rw [encode_of_decodeLong h, wordBytes_be16, groupOf, hi8_be16, lo8_be16]; rfl
  | host => exact encode_of_decodeHost h

/-! ## The shape of a request -/

/-- Every encoding has the shape of its format. -/
theorem encode_wf (i : Instr) : (encode i).wf = true := by
  cases i with
  | startCont | stopCont | setInterval _ | getReady | readMeas | setAsc _ | setFrc _ | setToffset _ | setAlt _
  | softReset | crc8 _ _ | addChk _ | verChk _ _ _ | sampleDriver | stopDriver => rfl
  | send id data => exact Laws.EncodeShape.send id data
  | read n => exact Laws.EncodeShape.read n
  | execCmd cmd => exact Laws.EncodeShape.execCmd cmd
  | openDriver period => exact Laws.EncodeShape.openDriver period

/-- Sealing a frame changes a byte and no length. -/
theorem sealed_wf (r : Request) : r.sealed.wf = r.wf := by
  unfold Request.sealed
  split
  · next hformat hbytes => simp [Request.wf, hformat, hbytes]
  · rfl

/-- Settles O3: a request that decodes has the length of an encoding, which is that of its format. -/
theorem requestOfWrongShapeIsRejected : Obligations.RequestOfWrongShapeIsRejected := by
  intro r hwf
  cases h : decode r with
  | error why => exact ⟨why, rfl⟩
  | ok i =>
    have hshape : r.wf = true := by rw [← sealed_wf, ← encodeUndoesDecode r i h, encode_wf]
    rw [hwf] at hshape
    cases hshape

/-- Settles O4: each request is written out in full, so the decoder's tests on it are closed. -/
theorem writtenOutWordsDecode : Obligations.WrittenOutWordsDecode :=
  ⟨rfl, rfl, rfl, rfl, rfl, rfl, rfl⟩

theorem decodeHost_reserved {sel : Byte} (h9 : 9 ≤ sel.toNat) (h15 : sel.toNat ≤ 15) (ops : List Byte) :
    decodeHost (sel :: ops) = .error (.reservedSelect sel) := by
  have hne : ∀ code : Byte, code.toNat < 9 → sel ≠ code := by
    rintro code hlt rfl
    omega
  rw [decodeHost, if_neg (hne 0 (by decide)), if_neg (hne 1 (by decide)), if_neg (hne 2 (by decide)),
    if_neg (hne 3 (by decide)), if_neg (hne 4 (by decide)), if_neg (hne 5 (by decide)), if_neg (hne 6 (by decide)),
    if_neg (hne 7 (by decide)), if_neg (hne 8 (by decide)), if_pos h15]

end Sys2Proof.Machine

/-! # The step, reset and the hang (spec/70_reset_and_hazards.md R170, R171; 20_memory.md R36, R44) -/

namespace Sys2Proof.Machine

/-! ## What a step takes up -/

section TakesUp

variable {s : State} {r : Request} {rest : List HostEvent}

theorem step_busy (hs : s.busy = true) : step s = .next s := by
  rw [step, fetch, if_pos hs]

variable (hs : s.busy = false)
include hs

theorem step_waiting (hi : s.inbox = []) : step s = .next s := by
  simp only [step, fetch, hs, hi, Bool.false_eq_true, if_false]

theorem step_reset (hi : s.inbox = .reset :: rest) : step s = hostReset { s with inbox := rest } := by
  simp only [step, fetch, hs, hi, Bool.false_eq_true, if_false]

theorem fetch_request (hi : s.inbox = .request r :: rest) : fetch s = .request r { s with inbox := rest } := by
  simp only [fetch, hs, hi, Bool.false_eq_true, if_false]

theorem step_decoded {i : Instr} (hi : s.inbox = .request r :: rest) (hd : decode r = .ok i) :
    step s = exec i { s with inbox := rest } := by
  simp only [step, fetch_request hs hi, hd]

theorem step_undecodable {why : Reject} (hi : s.inbox = .request r :: rest) (hd : decode r = .error why) :
    step s = .refused (.undecodable why) := by
  simp only [step, fetch_request hs hi, hd]

end TakesUp

/-- Everything a step can do that has a next state: nothing, a reset, or an operation. -/
theorem step_next_cases {s t : State} (h : step s = .next t) :
    t = s ∨
    (s.busy = false ∧ ∃ rest, s.inbox = .reset :: rest ∧ hostReset { s with inbox := rest } = .next t) ∨
    (s.busy = false ∧ ∃ r rest i, s.inbox = .request r :: rest ∧ decode r = .ok i ∧
      exec i { s with inbox := rest } = .next t) := by
  obtain hs | hs := Bool.eq_false_or_eq_true s.busy
  · rw [step_busy hs] at h
    exact .inl (Host.Outcome.next.inj h).symm
  · match hi : s.inbox with
    | [] =>
      rw [step_waiting hs hi] at h
      exact .inl (Host.Outcome.next.inj h).symm
    | .reset :: rest => exact .inr (.inl ⟨hs, rest, rfl, step_reset hs hi ▸ h⟩)
    | .request r :: rest =>
      cases hd : decode r with
      | error why => rw [step_undecodable hs hi hd] at h; cases h
      | ok i => exact .inr (.inr ⟨hs, r, rest, i, rfl, hd, step_decoded hs hi hd ▸ h⟩)

theorem hostReset_idle {s : State} (hs : s.busy = false) :
    hostReset s = .next { State.reset with
      crcPolicy := s.crcPolicy, stateGuard := s.stateGuard
      transport := s.transport, inbox := s.inbox, results := s.results } := if_neg (Bool.eq_false_iff.mp hs)

/-! ## The obligations -/

/-- Settles O5: the decoder reads nothing from a select code 9 to 15, whatever follows it, and the step refuses. -/
theorem reservedSelectsAreRefused : Obligations.ReservedSelectsAreRefused :=
  fun _ _ ops _ hs h9 h15 hi => step_undecodable hs hi (decodeHost_reserved h9 h15 ops)

/-- Settles O8: taking up a request that decodes is exec of its instruction. -/
theorem stepRunsTheDecodedRequest : Obligations.StepRunsTheDecodedRequest := fun _ _ _ _ hs => step_decoded hs

/-- Settles O9: `withFetchWord` puts the word's request first, and taking it leaves the state it was put into. -/
theorem stepRunsTheFetchWord : Obligations.StepRunsTheFetchWord := by
  intro s nbits w i hs hw
  have hd : decode (tableRequest nbits w) = .ok i := by
    unfold decodeTableWord at hw
    split at hw
    · next hd => rw [hd, Option.some.inj hw]
    · cases hw
  exact step_decoded (s := s.withFetchWord nbits w) hs rfl hd

/-- Settles O10: a busy block takes up nothing, and an idle one has nothing to take. -/
theorem stepWithNothingToTakeUp : Obligations.StepWithNothingToTakeUp := by
  intro s h
  cases hs : s.busy with
  | true => exact step_busy hs
  | false => exact step_waiting hs (h.resolve_left (Bool.eq_false_iff.mp hs))

/-- Settles O11, by induction on the number of steps. -/
theorem hungBlockStaysHung : Obligations.HungBlockStaysHung := by
  intro s k hs
  induction k with
  | zero => rfl
  | succ k ih =>
    have hstep : core.step s = .next s := step_busy hs
    simp only [Host.Core.run, hstep, ih]

/-- Settles O12: the next state is written out by `hostReset`. -/
theorem resetEventRestoresTheResetState : Obligations.ResetEventRestoresTheResetState := by
  intro s rest hs hi
  refine ⟨_, (step_reset hs hi).trans (hostReset_idle hs), ?_⟩
  exact ⟨rfl, rfl, rfl, rfl, rfl, rfl, rfl, rfl, rfl, rfl, rfl, rfl⟩

/-- Settles O14: the values are the fields of `State.reset`; an empty buffer has no cell that can be read. -/
theorem resetValues : Obligations.ResetValues :=
  ⟨rfl, rfl, rfl, rfl, rfl, rfl, fun i => readRx_unwritten (Nat.zero_le i), rfl, rfl⟩

end Sys2Proof.Machine

/-! # The laws of the checksum (spec/40_checksum.md R78) -/

namespace Sys2Proof.Machine

/-! ## Residue, bijectivity, affinity -/

theorem crcTable_eq_zero_iff {x : Byte} : crcTable x = 0 ↔ x = 0 :=
  ⟨crcTable_eq_zero x, fun h => h ▸ crcTable_zero⟩

/-- Settles O19: the third byte is xored into the checksum of the first two, and the table is zero at zero alone. -/
theorem checksumResidue : Obligations.ChecksumResidue := by
  intro b0 b1 c
  show crcTable (crc8 b0 b1 ^^^ c) = 0 ↔ c = crc8 b0 b1
  rw [crcTable_eq_zero_iff, eq_comm (a := c)]
  exact BitVec.xor_eq_zero_iff

theorem crc8_injective_right (b0 : Byte) : Function.Injective fun b1 => crc8 b0 b1 := by
  intro x y h
  simp only [crc8_eq_crc8Table, crc8Table] at h
  exact (BitVec.xor_right_inj _).mp (crcTable_injective h)

theorem crc8_injective_left (b1 : Byte) : Function.Injective fun b0 => crc8 b0 b1 := by
  intro x y h
  simp only [crc8_eq_crc8Table, crc8Table] at h
  have hfirst := crcTable_injective ((BitVec.xor_left_inj _).mp (crcTable_injective h))
  exact (BitVec.xor_right_inj _).mp hfirst

/-- Settles O20: an injective map of a finite type to itself is a bijection. -/
theorem checksumIsBijectiveInEachByte : Obligations.ChecksumIsBijectiveInEachByte :=
  ⟨fun b0 => Finite.injective_iff_bijective.mp (crc8_injective_right b0),
    fun b1 => Finite.injective_iff_bijective.mp (crc8_injective_left b1)⟩

/-- The checksum of a word with start value 0, which is linear in the word. -/
def crcLinear (b0 b1 : Byte) : Byte := crcTable (crcTable b0 ^^^ b1)

theorem crcLinear_xor (x0 x1 y0 y1 : Byte) :
    crcLinear (x0 ^^^ y0) (x1 ^^^ y1) = crcLinear x0 x1 ^^^ crcLinear y0 y1 := by
  simp only [crcLinear, crcTable_xor]
  ac_rfl

/-- The start value is xored into the first byte. -/
theorem crc8_eq_crcLinear (b0 b1 : Byte) : crc8 b0 b1 = crcLinear (Config.crcInit ^^^ b0) b1 := crc8_eq_crc8Table b0 b1

theorem crc8_xor (x0 x1 y0 y1 : Byte) : crc8 (x0 ^^^ y0) (x1 ^^^ y1) = crc8 x0 x1 ^^^ crcLinear y0 y1 := by
  rw [crc8_eq_crcLinear, crc8_eq_crcLinear, ← crcLinear_xor, BitVec.xor_assoc]

theorem crc8_zero : crc8 0 0 = 0x81 := by decide +kernel

/-- Settles O21: of two checksums xored, one start value is left to cancel, which the checksum of the zero word does. -/
theorem checksumIsAffine : Obligations.ChecksumIsAffine := by
  refine fun x0 x1 y0 y1 => ⟨?_, crc8_zero⟩
  have hy : crc8 y0 y1 = crc8 0 0 ^^^ crcLinear y0 y1 := by
    simpa only [BitVec.ofNat_eq_ofNat, BitVec.zero_xor] using crc8_xor 0 0 y0 y1
  calc crc8 x0 x1 ^^^ crc8 y0 y1 ^^^ crc8 0 0
      = crc8 x0 x1 ^^^ (crc8 0 0 ^^^ crcLinear y0 y1 ^^^ crc8 0 0) := by rw [hy, BitVec.xor_assoc]
    _ = crc8 x0 x1 ^^^ crcLinear y0 y1 := by
        rw [BitVec.xor_comm (crc8 0 0), BitVec.xor_assoc, BitVec.xor_self, BitVec.xor_zero]
    _ = crc8 (x0 ^^^ y0) (x1 ^^^ y1) := (crc8_xor x0 x1 y0 y1).symm

/-! ## The syndrome of an error pattern -/

/-- What an error pattern does to the verdict on a group: the linear checksum of the pattern's data bytes against its
checksum byte. As polynomials, the remainder of the pattern by the generator. -/
def syndrome (e : BitVec 24) : Byte :=
  crcLinear (e.extractLsb' 16 8) (e.extractLsb' 8 8) ^^^ e.extractLsb' 0 8

theorem syndrome_xor (e f : BitVec 24) : syndrome (e ^^^ f) = syndrome e ^^^ syndrome f := by
  simp only [syndrome, BitVec.extractLsb'_xor, crcLinear_xor]
  ac_rfl

/-- A corruption of a verifying group verifies exactly when its syndrome is zero. -/
theorem groupVerifies_xor {g : BitVec 24} (hg : groupVerifies g = true) (e : BitVec 24) :
    groupVerifies (g ^^^ e) = (syndrome e == 0) := by
  have hg : crc8 (g.extractLsb' 16 8) (g.extractLsb' 8 8) = g.extractLsb' 0 8 := by simpa [groupVerifies] using hg
  simp only [groupVerifies, BitVec.extractLsb'_xor, crc8_xor, hg, syndrome]
  rw [Bool.eq_iff_iff, beq_iff_eq, beq_iff_eq, BitVec.xor_right_inj]
  exact BitVec.xor_eq_zero_iff.symm

/-! ## A pattern shifted by one bit -/

/-- The bit a byte hands to the byte above it when both are shifted. -/
def carry (b : Byte) : Byte := if b.getLsbD 7 then 1 else 0

/-- Multiplying by `x` is a shift, and the bit shifted out of bit 7 comes back through the table. -/
theorem crcShift_eq_carry (c : Byte) : crcShift c = (c <<< 1) ^^^ crcTable (carry c) := by
  have hone : crcTable 1 = Config.crcPoly := by decide +kernel
  unfold crcShift carry
  split
  · rw [hone]
  · rw [crcTable_zero, BitVec.ofNat_eq_ofNat, BitVec.xor_zero]

theorem crcShifts_succ (n : Nat) (c : Byte) : crcShifts (n + 1) c = crcShift (crcShifts n c) := by
  induction n generalizing c with
  | zero => rfl
  | succ n ih => rw [crcShifts, ih, crcShifts]

theorem crcShift_crcTable (c : Byte) : crcShift (crcTable c) = crcTable (crcShift c) :=
  (crcShifts_succ _ c).symm

theorem carry_getLsbD_zero (b : Byte) : (carry b).getLsbD 0 = b.getLsbD 7 := by
  unfold carry
  split
  · next h => exact h.symm
  · next h => exact (Bool.eq_false_of_not_eq_true h).symm

theorem carry_getLsbD_succ (b : Byte) (i : Nat) : (carry b).getLsbD (i + 1) = false := by
  unfold carry
  split <;> simp

theorem extractLsb'_zero_shiftLeft_one (e : BitVec 24) : (e <<< 1).extractLsb' 0 8 = e.extractLsb' 0 8 <<< 1 := by
  refine BitVec.eq_of_getLsbD_eq fun i hi => ?_
  rw [BitVec.getLsbD_shiftLeft, BitVec.getLsbD_extractLsb', BitVec.getLsbD_shiftLeft, BitVec.getLsbD_extractLsb',
    Nat.zero_add, Nat.zero_add]
  simp [hi, show i < 24 by omega, show i - 1 < 8 by omega]

/-- A byte of a shifted pattern is the byte shifted, with the carry of the byte below. -/
theorem extractLsb'_shiftLeft_one (e : BitVec 24) {k : Nat} (hk : k ≤ 8) :
    (e <<< 1).extractLsb' (k + 8) 8 = (e.extractLsb' (k + 8) 8 <<< 1) ^^^ carry (e.extractLsb' k 8) := by
  refine BitVec.eq_of_getLsbD_eq fun i hi => ?_
  rw [BitVec.getLsbD_xor, BitVec.getLsbD_shiftLeft, BitVec.getLsbD_extractLsb', BitVec.getLsbD_shiftLeft]
  cases i with
  | zero => rw [carry_getLsbD_zero, BitVec.getLsbD_extractLsb']; simp [show k + 8 < 24 by omega]
  | succ i =>
    rw [carry_getLsbD_succ, BitVec.getLsbD_extractLsb']
    simp [hi, show i < 8 by omega, show k + 8 + (i + 1) < 24 by omega]

/-- A pattern whose last bit is not shifted out has its syndrome multiplied by `x`. -/
theorem syndrome_shiftLeft_one {e : BitVec 24} (h : e.getLsbD 23 = false) :
    syndrome (e <<< 1) = crcShift (syndrome e) := by
  have htop : crcShift (e.extractLsb' 16 8) = e.extractLsb' 16 8 <<< 1 := by
    have hbit : (e.extractLsb' 16 8).getLsbD 7 = false := by rw [BitVec.getLsbD_extractLsb']; exact h
    rw [crcShift, if_neg (Bool.eq_false_iff.mp hbit)]
  rw [syndrome, syndrome, extractLsb'_shiftLeft_one e (k := 8) (by omega),
    extractLsb'_shiftLeft_one e (k := 0) (by omega), extractLsb'_zero_shiftLeft_one]
  simp only [crcLinear, crcShift_xor, crcShift_crcTable, htop]
  rw [crcShift_eq_carry (e.extractLsb' 8 8), crcShift_eq_carry (e.extractLsb' 0 8)]
  simp only [crcTable_xor]
  ac_rfl

/-- Shifted by `k` bits, none of them out, a pattern has its syndrome multiplied by `x` `k` times. -/
theorem syndrome_shiftLeft {e : BitVec 24} (k : Nat) (h : ∀ i, 24 ≤ i + k → e.getLsbD i = false) :
    syndrome (e <<< k) = crcShifts k (syndrome e) := by
  induction k with
  | zero => rw [BitVec.shiftLeft_zero, crcShifts]
  | succ k ih =>
    have hlast : (e <<< k).getLsbD 23 = false := by
      rw [BitVec.getLsbD_shiftLeft, h (23 - k) (by omega), Bool.and_false]
    rw [BitVec.shiftLeft_add, syndrome_shiftLeft_one hlast, ih fun i hi => h i (by omega), crcShifts_succ]

/-! ## Bits within 8 consecutive ones -/

theorem crcShift_injective {x y : Byte} (h : crcShift x = crcShift y) : x = y := by
  have htable := congrArg (crcShifts 7) h
  exact crcTable_injective htable

theorem crcShifts_injective (n : Nat) {x y : Byte} (h : crcShifts n x = crcShifts n y) : x = y := by
  induction n generalizing x y with
  | zero => exact h
  | succ n ih => exact crcShift_injective (ih h)

theorem crcShifts_zero (n : Nat) : crcShifts n 0 = 0 := by
  induction n with
  | zero => rfl
  | succ n ih => exact ih

theorem syndrome_zeroExtend (m : Byte) : syndrome (m.zeroExtend 24) = m := by
  have hhigh : (m.zeroExtend 24).extractLsb' 16 8 = 0 := by
    refine BitVec.eq_of_getLsbD_eq fun i _ => ?_
    simp [BitVec.getLsbD_of_ge m (16 + i) (by omega)]
  have hmid : (m.zeroExtend 24).extractLsb' 8 8 = 0 := by
    refine BitVec.eq_of_getLsbD_eq fun i _ => ?_
    simp
  have hlow : (m.zeroExtend 24).extractLsb' 0 8 = m := by
    refine BitVec.eq_of_getLsbD_eq fun i hi => ?_
    simp [hi, show i < 24 by omega]
  have hzero : crcLinear 0 0 = 0 := by decide +kernel
  rw [syndrome, hhigh, hmid, hlow, hzero, BitVec.ofNat_eq_ofNat, BitVec.zero_xor]

/-- Within 8 consecutive bits a pattern is a non-zero byte multiplied by a power of `x`, and that is never zero. -/
theorem syndrome_burst {m : Byte} (hm : m ≠ 0) {k : Nat} (hk : k ≤ 16) : syndrome (m.zeroExtend 24 <<< k) ≠ 0 := by
  have hshift : syndrome (m.zeroExtend 24 <<< k) = crcShifts k m := by
    rw [syndrome_shiftLeft, syndrome_zeroExtend]
    intro i hi
    simp [BitVec.getLsbD_of_ge m i (by omega)]
  rw [hshift]
  exact fun h => hm (crcShifts_injective k (h.trans (crcShifts_zero k).symm))

/-! ## A pattern by the bits it flips -/

/-- The remainder of `x ^ i` by the generator: the syndrome of a flip of bit `i` alone. -/
def xPower (i : Nat) : Byte := crcShifts i 1

theorem syndrome_flip {i : Nat} (hi : i < 24) : syndrome (1#24 <<< i) = xPower i := by
  have hone : syndrome 1#24 = 1 := syndrome_zeroExtend 1
  rw [syndrome_shiftLeft, hone, xPower]
  intro j hj
  simp [show j ≠ 0 by omega]

/-- The pattern that flips the bits listed. -/
def flips (is : List Nat) : BitVec 24 := is.foldr (fun i e => (1#24 <<< i) ^^^ e) 0

theorem flips_nil : flips [] = 0#24 := rfl

theorem flips_cons (i : Nat) (is : List Nat) : flips (i :: is) = (1#24 <<< i) ^^^ flips is := rfl

theorem flip_getLsbD (i : Nat) {k : Nat} (hk : k < 24) : (1#24 <<< i).getLsbD k = decide (k = i) := by
  rw [BitVec.getLsbD_shiftLeft, BitVec.getLsbD_one, Bool.eq_iff_iff]
  simp [hk]
  omega

theorem flips_getLsbD {is : List Nat} (hnodup : is.Nodup) {k : Nat} (hk : k < 24) :
    (flips is).getLsbD k = decide (k ∈ is) := by
  induction is with
  | nil => simp [flips]
  | cons i is ih =>
    obtain ⟨hi, hnodup⟩ := List.nodup_cons.mp hnodup
    rw [flips_cons, BitVec.getLsbD_xor, flip_getLsbD i hk, ih hnodup]
    by_cases hki : k = i
    · subst hki; simp [hi]
    · simp [hki]

/-- The bits an error pattern flips, ascending. -/
def flipped (e : BitVec 24) : List Nat := (List.range 24).filter fun i => e.getLsbD i

theorem length_flipped (e : BitVec 24) : (flipped e).length = weight e := rfl

theorem flipped_nodup (e : BitVec 24) : (flipped e).Nodup := List.nodup_range.filter _

theorem lt_of_mem_flipped {e : BitVec 24} {i : Nat} (h : i ∈ flipped e) : i < 24 :=
  List.mem_range.mp (List.mem_filter.mp h).1

theorem flips_flipped (e : BitVec 24) : flips (flipped e) = e := by
  refine BitVec.eq_of_getLsbD_eq fun k hk => ?_
  rw [flips_getLsbD (flipped_nodup e) hk]
  simp [flipped, hk]

/-! ## An odd number of bits -/

/-- The xor of a byte's bits: a polynomial's value at 1. -/
def parity (b : Byte) : Bool := (bitsMsbFirst b).foldr xor false

theorem parity_xor (a b : Byte) : parity (a ^^^ b) = (parity a ^^ parity b) := by
  simp only [parity, bitsMsbFirst, List.foldr_cons, List.foldr_nil, BitVec.getLsbD_xor]
  have hcomm : Std.Commutative xor := ⟨Bool.xor_comm⟩
  simp only [Bool.xor_false]
  ac_rfl

/-- The generator has an even number of terms, so a shift step keeps the parity. -/
theorem parity_crcShift : ∀ c : Byte, parity (crcShift c) = parity c := by decide +kernel

theorem parity_crcShifts (n : Nat) (c : Byte) : parity (crcShifts n c) = parity c := by
  induction n generalizing c with
  | zero => rfl
  | succ n ih => rw [crcShifts, ih, parity_crcShift]

/-- The parity of the syndrome is that of the number of bits flipped. -/
theorem parity_syndrome_flips {is : List Nat} (h : ∀ i ∈ is, i < 24) :
    parity (syndrome (flips is)) = decide (is.length % 2 = 1) := by
  induction is with
  | nil => decide +kernel
  | cons i is ih =>
    obtain ⟨hi, his⟩ := List.forall_mem_cons.mp h
    have hone : parity (xPower i) = true := parity_crcShifts i 1
    rw [flips_cons, syndrome_xor, parity_xor, syndrome_flip hi, hone, ih his, List.length_cons]
    by_cases hodd : is.length % 2 = 1
    · simp [hodd, show ¬(is.length + 1) % 2 = 1 by omega]
    · simp [hodd, show (is.length + 1) % 2 = 1 by omega]

theorem syndrome_odd {e : BitVec 24} (h : weight e % 2 = 1) : syndrome e ≠ 0 := by
  intro hzero
  have hparity := parity_syndrome_flips fun i => lt_of_mem_flipped (e := e) (i := i)
  rw [flips_flipped, length_flipped, hzero, decide_eq_true h] at hparity
  revert hparity
  decide

/-! ## Two bits -/

theorem xPower_injective : ∀ i < 24, ∀ j < 24, xPower i = xPower j → i = j := by decide +kernel

theorem syndrome_two {e : BitVec 24} (h : weight e = 2) : syndrome e ≠ 0 := by
  obtain ⟨i, j, hij⟩ := List.length_eq_two.mp ((length_flipped e).trans h)
  have hnodup : i ≠ j := by simpa [hij] using flipped_nodup e
  have hi : i < 24 := lt_of_mem_flipped (e := e) (by simp [hij])
  have hj : j < 24 := lt_of_mem_flipped (e := e) (by simp [hij])
  have hsyndrome : syndrome e = xPower i ^^^ xPower j := by
    rw [← flips_flipped e, hij, flips_cons, flips_cons, flips_nil, BitVec.xor_zero, syndrome_xor, syndrome_flip hi,
      syndrome_flip hj]
  rw [hsyndrome]
  exact fun hzero => hnodup (xPower_injective i hi j hj (BitVec.xor_eq_zero_iff.mp hzero))

/-- Settles O22: a corruption verifies when its syndrome is zero. An odd number of flips has odd parity, two flips
are two different powers of `x`, and a burst is a byte times a power of `x`. -/
theorem smallCorruptionsNeverVerify : Obligations.SmallCorruptionsNeverVerify := by
  intro g e hg he
  have hsyndrome : syndrome e ≠ 0 := by
    obtain hweight | hodd | ⟨m, k, hk, hm, rfl⟩ := he
    · by_cases htwo : weight e = 2
      · exact syndrome_two htwo
      · exact syndrome_odd (by omega)
    · exact syndrome_odd hodd
    · exact syndrome_burst hm hk
  rw [groupVerifies_xor hg, beq_eq_false_iff_ne]
  exact hsyndrome

/-! ## Four bits -/

theorem flips4_eq_flips {i j k l : Nat} (hij : i < j) (hjk : j < k) (hkl : k < l) :
    flips4 i j k l = flips [i, j, k, l] := by
  have hnodup : [i, j, k, l].Nodup := by simp; omega
  refine BitVec.eq_of_getLsbD_eq fun b hb => ?_
  rw [flips_getLsbD hnodup hb]
  simp only [flips4, BitVec.getLsbD_or, flip_getLsbD _ hb]
  simp [Bool.or_assoc]

theorem syndrome_flips4 {i j k l : Nat} (hij : i < j) (hjk : j < k) (hkl : k < l) (hl : l < 24) :
    syndrome (flips4 i j k l) = xPower i ^^^ xPower j ^^^ xPower k ^^^ xPower l := by
  rw [flips4_eq_flips hij hjk hkl]
  simp only [flips_cons, flips_nil, BitVec.xor_zero, syndrome_xor, syndrome_flip hl,
    syndrome_flip (hkl.trans hl), syndrome_flip ((hjk.trans hkl).trans hl),
    syndrome_flip (((hij.trans hjk).trans hkl).trans hl)]
  ac_rfl

/-- The syndromes of all patterns of weight 4. -/
def fourBitSyndromes : List Byte :=
  (List.range 24).flatMap fun l => (List.range l).flatMap fun k =>
    (List.range k).flatMap fun j => (List.range j).map fun i => xPower i ^^^ xPower j ^^^ xPower k ^^^ xPower l

theorem map_syndrome_fourBitPatterns : fourBitPatterns.map syndrome = fourBitSyndromes := by
  simp only [fourBitPatterns, fourBitSyndromes, List.map_flatMap, List.map_map]
  refine List.flatMap_congr fun l hl => List.flatMap_congr fun k hk => List.flatMap_congr fun j hj =>
    List.map_congr_left fun i hi => ?_
  exact syndrome_flips4 (List.mem_range.mp hi) (List.mem_range.mp hj) (List.mem_range.mp hk) (List.mem_range.mp hl)

theorem count_zero_fourBitSyndromes : fourBitSyndromes.countP (· == 0) = 80 := by
  simp only [fourBitSyndromes, List.countP_flatMap, List.countP_map, Function.comp_def]
  decide +kernel

/-- Settles O23: the corruptions that verify are those of syndrome zero, and of all patterns of weight 4 there are 80. -/
theorem eightyFourBitCorruptionsVerify : Obligations.EightyFourBitCorruptionsVerify := by
  intro g hg
  simp only [groupVerifies_xor hg]
  rw [← List.countP_eq_length_filter, ← count_zero_fourBitSyndromes, ← map_syndrome_fourBitPatterns, List.countP_map]
  rfl

end Sys2Proof.Machine

/-! # READ under each policy (spec/41_framer.md R89, R90, R94) -/

namespace Sys2Proof.Machine

theorem replyMismatches_nil {d : Delivery} {n : Nat}
    (h : ∀ i, i < n → crc8 (byteAt d (3 * i)) (byteAt d (3 * i + 1)) = byteAt d (3 * i + 2)) :
    replyMismatches d n = [] :=
  mismatchesFrom_nil d n 0 fun j _ hj => h j (by omega)

theorem replyMismatches_first {d : Delivery} {n i : Nat} (hi : i < n)
    (hb : ∀ j, j < i → crc8 (byteAt d (3 * j)) (byteAt d (3 * j + 1)) = byteAt d (3 * j + 2))
    (hm : crc8 (byteAt d (3 * i)) (byteAt d (3 * i + 1)) ≠ byteAt d (3 * i + 2)) :
    ∃ ms, replyMismatches d n = ⟨crc8 (byteAt d (3 * i)) (byteAt d (3 * i + 1)), byteAt d (3 * i + 2)⟩ :: ms :=
  mismatchesFrom_first d n 0 i (Nat.zero_le i) (by omega) (fun j _ hj => hb j hj) hm

/-- Settles O27: with no mismatch the reply is taken whole; otherwise the first entry of its mismatches is that of the
lowest-numbered one. -/
theorem readStrict : Obligations.ReadStrict := by
  intro s n d rest hs hp h1 h6 ht
  refine ⟨fun hmatch => ?_, fun i hi hb hm => ?_⟩
  · have hnil : replyMismatches d n = [] := replyMismatches_nil hmatch
    rw [← replyWords_eq_map]
    refine ⟨_, exec_read_taken hs ⟨h1, h6⟩ ht (.inr hnil), ?_⟩
    rw [readDone_returns_visible, hnil]
    rfl
  · obtain ⟨ms, hfirst⟩ := replyMismatches_first hi hb hm
    exact ⟨_, exec_read_mismatch hs ⟨h1, h6⟩ ht hp hfirst, readDone_returns_visible ..⟩

/-- Only the data bytes enter the words. -/
theorem replyWords_congr {d d' : Delivery} {n : Nat}
    (h : ∀ i, i < n → byteAt d (3 * i) = byteAt d' (3 * i) ∧ byteAt d (3 * i + 1) = byteAt d' (3 * i + 1)) :
    replyWords d n = replyWords d' n := by
  rw [replyWords_eq_map, replyWords_eq_map]
  refine List.map_congr_left fun i hi => ?_
  obtain ⟨h0, h1⟩ := h i (List.mem_range.mp hi)
  rw [h0, h1]

/-- But for the two records, a READ that has its answer ends in a state its answer does not show in. -/
theorem readDone_returns_records_cleared (n : Nat) (r : BusResult (List Byte)) (ms : List DiagEntry)
    (rest : List (Answer Delivery)) (s : State) (o : Returned) :
    { (readDone n r ms rest s).returns o with diag := [], hist := [] } =
      { (s.answered rest).releaseRx.returns o with diag := [], hist := [] } := rfl

/-- Settles O29: both READs take their reply whole, and but for the history and the mismatches the states they end in
differ in the words alone, which are the same. -/
theorem checksumBytesInfluenceOnlyDiag : Obligations.ChecksumBytesInfluenceOnlyDiag := by
  intro s t t' n d d' rest hp hdata ht ht'
  have hs : s.busy = false := idle_of_exec_next (s := { s with transport := .ok d :: rest }) ht
  by_cases hn : 1 ≤ n ∧ n ≤ 6
  · rw [exec_read_taken (s := { s with transport := .ok d :: rest }) hs hn rfl (.inl hp)] at ht
    rw [exec_read_taken (s := { s with transport := .ok d' :: rest }) hs hn rfl (.inl hp),
      ← replyWords_congr hdata] at ht'
    rw [← Host.Outcome.next.inj ht, ← Host.Outcome.next.inj ht', readDone_returns_records_cleared,
      readDone_returns_records_cleared, State.answered, State.answered]
  · rw [exec_read_refused (s := { s with transport := .ok d :: rest }) hs (by omega)] at ht
    cases ht

end Sys2Proof.Machine

/-! # OPEN, SAMPLE and STOP, clause by clause (spec/43_driver.md R122 to R130) -/

namespace Sys2Proof.Machine

open Sys2Proof.Config (TransportError)

/-! ## OPEN and STOP -/

theorem hi8_lowWord (p : Nat) : hi8 (lowWord p) = BitVec.ofNat 8 (p / 256) := by
  refine BitVec.eq_of_toNat_eq ?_
  simp only [hi8, lowWord, BitVec.extractLsb'_toNat, BitVec.toNat_ofNat, Nat.shiftRight_eq_div_pow]
  omega

theorem lo8_lowWord (p : Nat) : lo8 (lowWord p) = BitVec.ofNat 8 (p % 256) := by
  refine BitVec.eq_of_toNat_eq ?_
  simp only [lo8, lowWord, BitVec.extractLsb'_toNat, BitVec.toNat_ofNat, Nat.shiftRight_zero]
  omega

/-- Settles O37: the interval frame carries the period's two low bytes, and the start frame follows it. -/
theorem openCompletes : Obligations.OpenCompletes := by
  intro s p d0 d1 rest hs hg h2 h1800 ht
  rw [← hi8_lowWord, ← lo8_lowWord, ← commandFrame_interval, ← commandFrame_start]
  exact exec_open_completes hs hg ⟨h2, h1800⟩ ht

/-- Settles O44: the answered frame clears CONT; the unanswered one leaves STOP without an end. -/
theorem stopCompletes : Obligations.StopCompletes := by
  intro s hs hg
  rw [← commandFrame_stop]
  refine ⟨fun _ _ => exec_stop_completes hs hg, fun ht => ⟨_, ?_, sendWaiting_hang_visible ht ..⟩⟩
  rw [exec_stop_passed hs hg, issue_silent ht, Ends.bind_never, finish_never]

/-! ## How SAMPLE's commands end it -/

theorem readDone_stuckAfter_visible (n : Nat) (r : BusResult (List Byte)) (ms ms' : List DiagEntry)
    (rest : List (Answer Delivery)) (s : State) (evs : List BusEvent) :
    ((readDone n r ms rest s).stuckAfter evs ms').visible =
      (s.stuckAfter (.read 0x61 (3 * n) r :: evs) (ms ++ ms')).visible := by
  rw [State.stuckAfter, State.stuckAfter, List.append_cons s.hist, ← List.append_assoc s.diag]
  rfl

theorem isReady_be16_iff {b0 b1 : Byte} : isReady (be16 b0 b1) = true ↔ b0 = 0x00 ∧ b1 = 0x01 := by
  rw [isReady, beq_iff_eq, show Config.ready = be16 0x00 0x01 by decide]
  refine ⟨fun h => ?_, fun ⟨h0, h1⟩ => by rw [h0, h1]⟩
  exact ⟨by rw [← hi8_be16 b0 b1, h, hi8_be16], by rw [← lo8_be16 b0 b1, h, lo8_be16]⟩

section Sample

variable {s t u : State} {x : Error} (hg : GuardPasses s true)
include hg

theorem sampleSequence_passed :
    sampleSequence s = (issue .getDataReady s).bind fun r s =>
      match r[0]? with
      | none => .fault .unwrittenScratch
      | some word => if isReady word then (issue .readMeasurement s).bind measured else .err .notReady s := by
  rw [sampleSequence, guardRefuses_eq_false_iff.mpr hg, if_neg Bool.false_ne_true]
  rfl

variable (hs : s.busy = false)
include hs

theorem exec_sample_first_err (h : issue .getDataReady s = .err x t) :
    exec .sampleDriver s = .next (t.returns (.err x)) := by
  rw [exec_sample_idle hs, sampleSequence_passed hg, h, Ends.bind_err, finish_err]

theorem exec_sample_first_never (h : issue .getDataReady s = .never t) : exec .sampleDriver s = .next t.hang := by
  rw [exec_sample_idle hs, sampleSequence_passed hg, h, Ends.bind_never, finish_never]

theorem exec_sample_notReady {word : Word} (h : issue .getDataReady s = .ok [word] t) (hw : isReady word = false) :
    exec .sampleDriver s = .next (t.returns (.err .notReady)) := by
  have hfirst : sampleSequence s = .err .notReady t := by
    rw [sampleSequence_passed hg, h]
    exact if_neg (Bool.eq_false_iff.mp hw)
  rw [exec_sample_idle hs, hfirst, finish_err]

variable (hready : issue .getDataReady s = .ok [Config.ready] t)
include hready

theorem exec_sample_second_err (h : issue .readMeasurement t = .err x u) :
    exec .sampleDriver s = .next (u.returns (.err x)) := by
  rw [exec_sample_idle hs, sampleSequence_ready hg hready, h, Ends.bind_err, finish_err]

theorem exec_sample_second_never (h : issue .readMeasurement t = .never u) : exec .sampleDriver s = .next u.hang := by
  rw [exec_sample_idle hs, sampleSequence_ready hg hready, h, Ends.bind_never, finish_never]

end Sample

/-- Settles O41: a reply that is taken gives one word, and a word other than `00 01` is not ready. -/
theorem sampleNotReady : Obligations.SampleNotReady := by
  intro s d0 d1 rest hs hg ht hp hbytes
  have hword : isReady (groupWord d1 0) = false := Bool.eq_false_iff.mpr fun h => hbytes (isReady_be16_iff.mp h)
  have htaken := issue_taken (cmd := .getDataReady) Nat.one_ne_zero ht hp
  rw [← commandFrame_getReady]
  exact ⟨_, exec_sample_notReady hg hs htaken hword, readDone_sendDone_returns_visible (rest' := .ok d1 :: rest) ..⟩

/-- Settles O42: each thing the transport can do short of a taken reply ends GET_READY, and with it SAMPLE. -/
theorem sampleFirstCommandErrors : Obligations.SampleFirstCommandErrors := by
  intro s hs hg
  have hw : expectedWords .getDataReady ≠ 0 := Nat.one_ne_zero
  rw [← commandFrame_getReady]
  refine ⟨fun e rest ht => ?_, fun d0 e rest ht => ?_, fun d0 d1 rest m ms ht hp hm => ?_, fun ht => ?_,
    fun d0 ht => ?_⟩
  · exact ⟨_, exec_sample_first_err hg hs (issue_fail ht), sendDone_returns_visible ..⟩
  · exact ⟨_, exec_sample_first_err hg hs (issue_readFail hw ht), readDone_sendDone_returns_visible ..⟩
  · exact ⟨_, exec_sample_first_err hg hs (issue_mismatch hw ht hp hm), readDone_sendDone_returns_visible ..⟩
  · exact ⟨_, exec_sample_first_never hg hs (issue_silent ht), sendWaiting_hang_visible ht ..⟩
  · exact ⟨_, exec_sample_first_never hg hs (issue_readSilent hw ht), readWaiting_sendDone_hang_visible ..⟩

/-! ## After a ready word of 1 -/

/-- The state after GET_READY, whose reply `d1` was taken. -/
def readyTaken (d1 : Delivery) (rest : List (Answer Delivery)) (s : State) : State :=
  readDone 1 (.ok (delivered d1 3)) (replyMismatches d1 1) rest
    (sendDone (commandId .getDataReady) (payload .getDataReady) (.ok ()) (.ok d1 :: rest) s)

section ReadyTaken

variable {s : State} {d0 d1 : Delivery} {rest : List (Answer Delivery)}

theorem issue_readyTaken (hp : Taken s d1 1) (h0 : byteAt d1 0 = 0x00) (h1 : byteAt d1 1 = 0x01)
    (ht : s.transport = .ok d0 :: .ok d1 :: rest) :
    issue .getDataReady s = .ok [Config.ready] (readyTaken d1 rest s) := by
  rw [← replyWords_ready h0 h1]
  exact issue_taken Nat.one_ne_zero ht hp

theorem readyTaken_after_visible (evs : List BusEvent) (ms : List DiagEntry) (rest' : List (Answer Delivery))
    (o : Returned) :
    ((readyTaken d1 rest s).after evs ms rest' o).visible =
      (s.after (wrote (commandFrame .getDataReady) :: got 3 d1 :: evs) (replyMismatches d1 1 ++ ms) rest' o).visible :=
  (readDone_after_visible ..).trans (sendDone_after_visible ..)

theorem readyTaken_stuckAfter_visible (evs : List BusEvent) :
    ((readyTaken d1 rest s).stuckAfter evs []).visible =
      (s.stuckAfter (wrote (commandFrame .getDataReady) :: got 3 d1 :: evs) (replyMismatches d1 1)).visible := by
  rw [← List.append_nil (replyMismatches d1 1)]
  exact (readDone_stuckAfter_visible ..).trans (sendDone_stuckAfter_visible ..)

end ReadyTaken

/-- Settles O43: with a ready word of 1, each thing the transport can do short of a taken measurement ends READ_MEAS,
and with it SAMPLE; the transactions and mismatches follow those of GET_READY, which under the strict policy has none. -/
theorem sampleSecondCommandErrors : Obligations.SampleSecondCommandErrors := by
  intro s d0 d1 hs hg hp1 h0 h1
  have hw : expectedWords .readMeasurement ≠ 0 := Nat.succ_ne_zero 5
  rw [← commandFrame_getReady, ← commandFrame_readMeas]
  refine ⟨fun e rest ht => ?_, fun d2 e rest ht => ?_, fun d2 d3 rest m ms ht hp hm => ?_, fun ht => ?_,
    fun d2 ht => ?_⟩
  · refine ⟨_, exec_sample_second_err hg hs (issue_readyTaken hp1 h0 h1 ht) (issue_fail (rest := rest) rfl), ?_⟩
    rw [sendDone_returns_visible, readyTaken_after_visible, List.append_nil]
    rfl
  · refine ⟨_, exec_sample_second_err hg hs (issue_readyTaken hp1 h0 h1 ht) (issue_readFail (rest := rest) hw rfl), ?_⟩
    rw [readDone_sendDone_returns_visible, readyTaken_after_visible, List.append_nil]
    rfl
  · have hnone : replyMismatches d1 1 = [] := hp1.resolve_left (by rw [hp]; nofun)
    refine ⟨_, exec_sample_second_err hg hs (issue_readyTaken hp1 h0 h1 ht)
      (issue_mismatch (rest := rest) hw rfl hp hm), ?_⟩
    rw [readDone_sendDone_returns_visible, readyTaken_after_visible, hnone]
    rfl
  · refine ⟨_, exec_sample_second_never hg hs (issue_readyTaken hp1 h0 h1 ht) (issue_silent rfl), ?_⟩
    rw [sendWaiting_hang_visible rfl, readyTaken_stuckAfter_visible]
    rfl
  · refine ⟨_, exec_sample_second_never hg hs (issue_readyTaken hp1 h0 h1 ht) (issue_readSilent hw rfl), ?_⟩
    rw [readWaiting_sendDone_hang_visible, readyTaken_stuckAfter_visible]
    rfl

end Sys2Proof.Machine

/-! # What every operation does -/

namespace Sys2Proof.Machine

/-! ## An operation as its guard, its work and its flag -/

/-- EXEC's work: the command, and the value made of its reply (R114). -/
def commandWork (cmd : Command) (s : State) : Ends Value :=
  (issue cmd s).bind fun words s => .ok (replyValue cmd words) s

/-- An operation between its guard (R121) and its change of CONT (R16). -/
def work : Instr → State → Ends Value
  | .startCont => commandWork .startContinuous
  | .stopCont => commandWork .stopContinuous
  | .setInterval x => commandWork (.setContinuousInterval x)
  | .getReady => commandWork .getDataReady
  | .readMeas => commandWork .readMeasurement
  | .setAsc b => commandWork (.setAutomaticSelfCalibration b)
  | .setFrc x => commandWork (.setForcedRecalibration x)
  | .setToffset x => commandWork (.setTemperatureOffset x)
  | .setAlt x => commandWork (.setAltitude x)
  | .softReset => commandWork .softReset
  | .crc8 b0 b1 => fun s => .ok (.byte (crc8 b0 b1)) s
  | .addChk w => fun s => .ok (.group (hi8 w) (lo8 w) (crc8 (hi8 w) (lo8 w))) s
  | .verChk b0 b1 c => fun s =>
    if crc8 b0 b1 = c then .ok (.word (be16 b0 b1)) s else .err (.checksumMismatch (crc8 b0 b1) c) s
  | .send id data => fun s => (sendFrame id data s).bind fun _ s => .ok .unit s
  | .read n => fun s => (readReply n s).bind fun words s => .ok (.words words) s
  | .execCmd cmd => commandWork cmd
  | .openDriver p => fun s =>
    if periodValid p then
      (issue (.setContinuousInterval (lowWord p)) s).bind fun _ s => commandWork .startContinuous s
    else .err (.invalidConfiguration (.periodOutOfRange p)) s
  | .sampleDriver => fun s => (issue .getDataReady s).bind fun r s =>
    match r[0]? with
    | none => .fault .unwrittenScratch
    | some word => if isReady word then (issue .readMeasurement s).bind measured else .err .notReady s
  | .stopDriver => commandWork .stopContinuous

/-- Whether the state guard refuses the operation (R121). -/
def guarded : Instr → State → Bool
  | .openDriver _, s => guardRefuses s false
  | .sampleDriver, s | .stopDriver, s => guardRefuses s true
  | _, _ => false

/-- The state with CONT as the operation leaves it when it succeeds (R16). -/
def flagged : Instr → State → State
  | .openDriver _, s => s.setCont true
  | .stopDriver, s => s.setCont false
  | _, s => s

@[simp] theorem Ends.bind_pure {α : Type} (m : Ends α) : (m.bind fun v t => .ok v t) = m := by cases m <;> rfl

theorem Ends.bind_assoc {α β γ : Type} (m : Ends α) (k : α → State → Ends β) (l : β → State → Ends γ) :
    (m.bind k).bind l = m.bind fun v t => (k v t).bind l := by
  cases m <;> rfl

theorem openSequence_eq_work (p : Nat) (s : State) :
    openSequence p s = if guarded (.openDriver p) s then .refuse .wrongDriverState
      else (work (.openDriver p) s).bind fun v t => .ok v (t.setCont true) := by
  refine congrArg (ite _ _) ?_
  by_cases hp : periodValid p = true
  · simp only [work, hp, if_true, commandWork, Ends.bind_assoc, Ends.bind_ok]
    rfl
  · simp only [work, hp]
    rfl

theorem stopSequence_eq_work (s : State) :
    stopSequence s = if guarded .stopDriver s then .refuse .wrongDriverState
      else (work .stopDriver s).bind fun v t => .ok v (t.setCont false) := by
  refine congrArg (ite _ _) ?_
  rw [work, commandWork, Ends.bind_assoc]
  rfl

/-- The change of CONT, where there is one, is all there is. -/
theorem flagged_eq_setCont (i : Instr) (s : State) : ∃ b, flagged i s = s.setCont b := by
  cases i with
  | openDriver _ => exact ⟨true, rfl⟩
  | stopDriver => exact ⟨false, rfl⟩
  | _ => exact ⟨s.cont, rfl⟩

/-- Every operation of an idle block: refused by its guard, or its work, with the change of CONT when that succeeds. -/
theorem exec_eq_work (i : Instr) {s : State} (hs : s.busy = false) :
    exec i s = finish (if guarded i s then .refuse .wrongDriverState
      else (work i s).bind fun v t => .ok v (flagged i t)) := by
  have unguarded : (∀ s, exec i s = runOp s (work i)) → guarded i s = false → (∀ t, flagged i t = t) →
      exec i s = finish (if guarded i s then .refuse .wrongDriverState
        else (work i s).bind fun v t => .ok v (flagged i t)) := by
    intro hexec hguarded hflagged
    simp only [hexec, runOp_idle hs, hguarded, hflagged, Bool.false_eq_true, if_false, Ends.bind_pure]
  cases i with
  | openDriver p => exact (runOp_idle hs _).trans (congrArg finish (openSequence_eq_work p s))
  | stopDriver => exact (runOp_idle hs _).trans (congrArg finish (stopSequence_eq_work s))
  | sampleDriver => exact (runOp_idle hs _).trans (congrArg (finish ∘ ite _ _) (Ends.bind_pure _).symm)
  | _ => exact unguarded (fun _ => rfl) rfl fun _ => rfl

/-! ## The requests that mean EXEC of a command, taken together -/

/-- The command a request asks for: by the command's own frame, or as an EXEC. -/
def commandOf : Instr → Option Command
  | .startCont => some .startContinuous
  | .stopCont => some .stopContinuous
  | .setInterval x => some (.setContinuousInterval x)
  | .getReady => some .getDataReady
  | .readMeas => some .readMeasurement
  | .setAsc b => some (.setAutomaticSelfCalibration b)
  | .setFrc x => some (.setForcedRecalibration x)
  | .setToffset x => some (.setTemperatureOffset x)
  | .setAlt x => some (.setAltitude x)
  | .softReset => some .softReset
  | .execCmd cmd => some cmd
  | _ => none

section CommandOf

variable {i : Instr} {cmd : Command} (h : commandOf i = some cmd)
include h

theorem exec_of_commandOf (s : State) : exec i s = execCommand cmd s := by
  cases i <;> cases h <;> rfl

theorem work_of_commandOf : work i = commandWork cmd := by
  cases i <;> cases h <;> rfl

theorem traffic_of_commandOf : traffic i = commandTraffic cmd := by
  cases i <;> cases h <;>
    simp only [traffic_startCont, traffic_stopCont, traffic_setInterval, traffic_getReady, traffic_readMeas,
      traffic_setAsc, traffic_setFrc, traffic_setToffset, traffic_setAlt, traffic_softReset, traffic_execCmd]

theorem mayReturn_of_commandOf (strict : Bool) (o : Returned) :
    mayReturn strict i o = commandMayReturn strict cmd o := by
  cases i <;> cases h <;> rfl

end CommandOf

/-- A case split by operation, in which the eleven requests for a command are one case. -/
theorem Instr.byOperation {motive : Instr → Prop} (command : ∀ i cmd, commandOf i = some cmd → motive i)
    (crc8 : ∀ b0 b1, motive (.crc8 b0 b1)) (addChk : ∀ w, motive (.addChk w))
    (verChk : ∀ b0 b1 c, motive (.verChk b0 b1 c)) (send : ∀ id data, motive (.send id data))
    (read : ∀ n, motive (.read n)) (openDriver : ∀ p, motive (.openDriver p)) (sampleDriver : motive .sampleDriver)
    (stopDriver : motive .stopDriver) (i : Instr) : motive i := by
  cases i with
  | startCont | stopCont | setInterval _ | getReady | readMeas | setAsc _ | setFrc _ | setToffset _ | setAlt _
  | softReset | execCmd _ => exact command _ _ rfl
  | crc8 b0 b1 => exact crc8 b0 b1
  | addChk w => exact addChk w
  | verChk b0 b1 c => exact verChk b0 b1 c
  | send id data => exact send id data
  | read n => exact read n
  | openDriver p => exact openDriver p
  | sampleDriver => exact sampleDriver
  | stopDriver => exact stopDriver

/-- Settles O35: both requests ask for one command, and a request for a command is EXEC of it. -/
theorem frameRequestsMeanExec : Obligations.FrameRequestsMeanExec := by
  intro x b s
  have hexec : ∀ {i cmd}, commandOf i = some cmd → exec i s = exec (.execCmd cmd) s := fun h => exec_of_commandOf h s
  exact ⟨hexec rfl, hexec rfl, hexec rfl, hexec rfl, hexec rfl, hexec rfl, hexec rfl, hexec rfl, hexec rfl, hexec rfl⟩

/-! ## What the work does to the state -/

theorem commandWork_runs (cmd : Command) (s : State) : Runs s (commandTraffic cmd) (commandWork cmd s) :=
  (issue_runs cmd s).mapV (replyValue cmd)

/-- SAMPLE's work is its sequence when the guard lets it through. -/
theorem work_sampleDriver {s : State} (hg : guarded .sampleDriver s = false) :
    work .sampleDriver s = sampleSequence s :=
  (sampleSequence_passed (guardRefuses_eq_false_iff.mp hg)).symm

theorem work_runs (i : Instr) {s : State} (hg : guarded i s = false) : Runs s (traffic i) (work i s) := by
  cases i using Instr.byOperation with
  | command i cmd h => rw [traffic_of_commandOf h, work_of_commandOf h]; exact commandWork_runs cmd s
  | crc8 b0 b1 => exact Runs.pure s _
  | addChk w => exact Runs.pure s _
  | verChk b0 b1 c =>
    simp only [work]
    split
    · exact Runs.pure s _
    · exact Runs.raise s (by trivial) _
  | send id data => rw [traffic_send]; exact (sendFrame_runs id data s).mapV fun _ => Value.unit
  | read n => exact (readReply_runs n s).mapV Value.words
  | openDriver p =>
    simp only [work]
    split
    · next hp =>
      rw [traffic_openDriver hp]
      exact (issue_runs _ s).bind fun _ t _ => commandWork_runs .startContinuous t
    · exact Runs.raise s (by trivial) _
  | sampleDriver => rw [work_sampleDriver hg]; exact sampleSequence_runs s
  | stopDriver => rw [traffic_stopDriver]; exact commandWork_runs .stopContinuous s

theorem unguarded_of_exec_next {i : Instr} {s t : State} (h : exec i s = .next t) : guarded i s = false := by
  rw [exec_eq_work i (idle_of_exec_next h)] at h
  refine Bool.eq_false_of_not_eq_true fun hg => ?_
  rw [if_pos hg] at h
  cases h

/-- Everything an operation with a next state can do: it returns a value, and CONT is set or cleared by OPEN and STOP;
it returns an Error; or it never ends. Each time its work made its transactions as `Runs` says. -/
theorem exec_next_cases {i : Instr} {s t : State} (h : exec i s = .next t) :
    (∃ v u, work i s = .ok v u ∧ t = (flagged i u).returns (.ok v) ∧ Runs s (traffic i) (.ok v u)) ∨
    (∃ x u, work i s = .err x u ∧ t = u.returns (.err x) ∧ Runs s (traffic i) (.err x u : Ends Value)) ∨
    (∃ u, work i s = .never u ∧ t = u.hang ∧ Runs s (traffic i) (.never u : Ends Value)) := by
  have hg := unguarded_of_exec_next h
  have hruns := work_runs i hg
  rw [exec_eq_work i (idle_of_exec_next h), hg, if_neg Bool.false_ne_true] at h
  cases hw : work i s with
  | ok v u => rw [hw] at h hruns; exact .inl ⟨v, u, rfl, (Host.Outcome.next.inj h).symm, hruns⟩
  | err x u => rw [hw] at h hruns; exact .inr (.inl ⟨x, u, rfl, (Host.Outcome.next.inj h).symm, hruns⟩)
  | never u => rw [hw] at h hruns; exact .inr (.inr ⟨u, rfl, (Host.Outcome.next.inj h).symm, hruns⟩)
  | refuse r => rw [hw] at h; cases h
  | fault f => rw [hw] at h; cases h

/-- Whatever an operation does besides, its transactions and mismatches are appended to the records, and the
parameters and the host's list stay. -/
theorem exec_moved {i : Instr} {s t : State} (h : exec i s = .next t) :
    ∃ evs ms, Moved s { t with cont := s.cont, busy := s.busy, results := s.results } evs ms := by
  have forget : ∀ {u evs ms}, Moved s u evs ms →
      Moved s { u with cont := s.cont, busy := s.busy, results := s.results } evs ms :=
    fun hm => { hm with cont := rfl, busy := rfl, results := rfl }
  obtain ⟨v, u, -, rfl, evs, ms, hm, -⟩ | ⟨x, u, -, rfl, evs, ms, hm, -⟩ | ⟨u, -, rfl, init, last, ms, hm, -⟩ :=
    exec_next_cases h <;> have hmoved := forget hm
  · obtain ⟨b, hb⟩ := flagged_eq_setCont i u
    rw [hb]
    exact ⟨evs, ms, hmoved⟩
  · exact ⟨evs, ms, hmoved⟩
  · exact ⟨init ++ [last], ms, hmoved⟩

end Sys2Proof.Machine

/-! # Rules that hold of every operation (spec/10_state.md R15, R16; 20_memory.md R33, R40; 60_exceptions.md R142 to
R152) -/

namespace Sys2Proof.Machine

open Sys2Proof.Config (TransportError)

/-! ## How a sequence comes to its end -/

section Bind

variable {α β : Type} {m : Ends α} {k : α → State → Ends β} {u : State}

theorem Ends.bind_eq_ok {v : β} : m.bind k = .ok v u ↔ ∃ a t, m = .ok a t ∧ k a t = .ok v u := by
  cases m <;> simp

theorem Ends.bind_eq_err {x : Error} :
    m.bind k = .err x u ↔ m = .err x u ∨ ∃ a t, m = .ok a t ∧ k a t = .err x u := by
  cases m <;> simp

theorem Ends.bind_eq_refuse {r : Refusal} :
    m.bind k = .refuse r ↔ m = .refuse r ∨ ∃ a t, m = .ok a t ∧ k a t = .refuse r := by
  cases m <;> simp

end Bind

/-! ## What the host is told (R140) -/

section Moved

variable {s u : State} {evs : List BusEvent} {ms : List DiagEntry} (hm : Moved s u evs ms)
include hm

/-- What a finished operation returned, whatever it made of CONT. -/
theorem Moved.returned_iff {flag : Bool} {o o' : Returned} :
    ((u.setCont flag).returns o).results = s.results ++ [o'] ↔ o = o' := by
  simp [hm.results]

theorem Moved.hang_results_ne {o : Returned} : u.hang.results ≠ s.results ++ [o] := by
  simp [hm.results]

theorem Moved.evs_eq {evs' : List BusEvent} {last : BusEvent} (h : u.hist = s.hist ++ evs' ++ [last]) :
    evs = evs' ++ [last] := by
  rw [hm.hist, List.append_assoc] at h
  exact List.append_cancel_left h

theorem Moved.traffic_of_made {tr : List Transaction} (h : Made s u tr) : evs.map BusEvent.transaction = tr := by
  obtain ⟨evs', hhist, rfl⟩ := h
  rw [List.append_cancel_left (hm.hist.symm.trans hhist)]

end Moved

/-! ## The flag (R15, R16) -/

theorem commandWork_eq_ok {cmd : Command} {s u : State} {v : Value} (h : commandWork cmd s = .ok v u) :
    ∃ words, issue cmd s = .ok words u ∧ v = replyValue cmd words := by
  obtain ⟨words, t, hi, ht⟩ := Ends.bind_eq_ok.mp h
  cases ht
  exact ⟨words, hi, rfl⟩

theorem commandWork_eq_err {cmd : Command} {s u : State} {x : Error} (h : commandWork cmd s = .err x u) :
    issue cmd s = .err x u := by
  obtain hi | ⟨_, _, -, ht⟩ := Ends.bind_eq_err.mp h
  · exact hi
  · cases ht

theorem commandWork_ok_unit {cmd : Command} {s t : State} {v : Value} (hw : expectedWords cmd = 0)
    (h : commandWork cmd s = .ok v t) : v = .unit := by
  obtain ⟨words, -, rfl⟩ := commandWork_eq_ok h
  exact if_pos hw

theorem work_openDriver_ok_unit {p : Nat} {s t : State} {v : Value} (h : work (.openDriver p) s = .ok v t) :
    v = .unit := by
  simp only [work] at h
  split at h
  · obtain ⟨_, _, -, hstart⟩ := Ends.bind_eq_ok.mp h
    exact commandWork_ok_unit rfl hstart
  · cases h

/-- Settles O47: the work of an operation leaves CONT, which then changes when OPEN or STOP returns its value. -/
theorem contChangesOnlyByOpenAndStop : Obligations.ContChangesOnlyByOpenAndStop := by
  intro i s t h
  obtain ⟨v, u, hw, rfl, evs, ms, hm, -⟩ | ⟨x, u, -, rfl, evs, ms, hm, -⟩ | ⟨u, -, rfl, init, last, ms, hm, -⟩ :=
    exec_next_cases h
  · have hresults : ∀ o, u.results ++ [o] = s.results ++ [o] := fun o => by rw [hm.results]
    cases i with
    | openDriver p =>
      obtain rfl := work_openDriver_ok_unit hw
      exact .inr (.inl ⟨⟨p, rfl⟩, rfl, hresults _⟩)
    | stopDriver =>
      obtain rfl := commandWork_ok_unit (cmd := .stopContinuous) rfl hw
      exact .inr (.inr ⟨rfl, rfl, hresults _⟩)
    | _ => exact .inl hm.cont
  · exact .inl hm.cont
  · exact .inl hm.cont

/-- Settles O48: an Error is returned from the state its work ended in, which has CONT as it was and records that begin
with the earlier ones. -/
theorem errorsLeaveTheFlag : Obligations.ErrorsLeaveTheFlag := by
  intro i s t x h hr
  have hs := idle_of_exec_next h
  obtain ⟨v, u, -, rfl, evs, ms, hm, -⟩ | ⟨y, u, -, rfl, evs, ms, hm, -⟩ | ⟨u, -, rfl, init, last, ms, hm, -⟩ :=
    exec_next_cases h
  · obtain ⟨b, hb⟩ := flagged_eq_setCont i u
    rw [hb] at hr
    cases (hm.returned_iff (flag := b)).mp hr
  · exact ⟨hm.cont, hm.busy.trans hs, ⟨evs, hm.hist.symm⟩, ⟨ms, hm.diag.symm⟩⟩
  · exact absurd hr hm.hang_results_ne

/-! ## One answer for each transaction (R33, R34) -/

/-- Settles O56: the transport is left with the answers not taken, one having been taken for each event that has one. -/
theorem oneAnswerForEachTransaction : Obligations.OneAnswerForEachTransaction := by
  intro i s t h
  obtain ⟨evs, ms, hm⟩ := exec_moved h
  refine ⟨hm.crcPolicy, hm.stateGuard, hm.inbox, ?_⟩
  have hevs : t.hist.drop s.hist.length = evs := by
    rw [show t.hist = s.hist ++ evs from hm.hist, List.drop_left]
  rw [hevs]
  exact hm.transport

/-! ## Bus errors are the last answer (R142, R143) -/

theorem BusEvent.Failed.not_succeeded {e : BusEvent} {x : Error} (h : e.Failed x) : e.succeeded = false := by
  match e, h with
  | .write _ _ (.fail _), _ => rfl
  | .read _ _ (.fail _), _ => rfl

theorem BusEvent.Failed.hasAnswer {e : BusEvent} {x : Error} (h : e.Failed x) : e.hasAnswer = true := by
  match e, h with
  | .write _ _ (.fail _), _ => rfl
  | .read _ _ (.fail _), _ => rfl

theorem BusEvent.Failed.unique {e : BusEvent} {x y : Error} (hx : e.Failed x) (hy : e.Failed y) : x = y := by
  match e, hx, hy with
  | .write _ _ (.fail _), hx, hy => cases hx; cases hy; rfl
  | .read _ _ (.fail _), hx, hy => cases hx; cases hy; rfl

theorem failed_busWriteFailed_iff {last : BusEvent} {e : TransportError} :
    last.Failed (.busWriteFailed e) ↔ ∃ a bytes, last = .write a bytes (.fail e) := by
  constructor
  · intro h
    match last, h with
    | .write a bytes (.fail _), h => cases h; exact ⟨a, bytes, rfl⟩
  · rintro ⟨a, bytes, rfl⟩; rfl

theorem failed_busReadFailed_iff {last : BusEvent} {e : TransportError} :
    last.Failed (.busReadFailed e) ↔ ∃ a n, last = .read a n (.fail e) := by
  constructor
  · intro h
    match last, h with
    | .read a n (.fail _), h => cases h; exact ⟨a, n, rfl⟩
  · rintro ⟨a, n, rfl⟩; rfl

/-- An operation returns a bus error exactly when its last transaction failed with it. -/
theorem exec_busError_iff {i : Instr} {s t : State} {x : Error} (h : exec i s = .next t) (hx : ¬x.NotBus) :
    t.results = s.results ++ [.err x] ↔ ∃ evs last, t.hist = s.hist ++ evs ++ [last] ∧ last.Failed x := by
  obtain ⟨v, u, -, rfl, evs, ms, hm, -, hok, -⟩ | ⟨y, u, -, rfl, evs, ms, hm, -, hend⟩ |
    ⟨u, -, rfl, init, last, ms, hm, -, -, hpending, -⟩ := exec_next_cases h
  · obtain ⟨b, hb⟩ := flagged_eq_setCont i u
    rw [hb, hm.returned_iff]
    refine ⟨nofun, fun ⟨evs', last, hhist, hfailed⟩ => ?_⟩
    have hlast := hok last (by simp [hm.evs_eq hhist])
    rw [hfailed.not_succeeded] at hlast
    cases hlast
  · rw [show u.returns (.err y) = (u.setCont u.cont).returns (.err y) from rfl, hm.returned_iff, Returned.err.injEq]
    obtain ⟨-, hok, hy⟩ | ⟨init, last, rfl, -, -, hfailed⟩ := hend
    · refine ⟨fun hyx => absurd (hyx ▸ hy) hx, fun ⟨evs', last, hhist, hfailed⟩ => ?_⟩
      have hlast := hok last (by simp [hm.evs_eq hhist])
      rw [hfailed.not_succeeded] at hlast
      cases hlast
    · refine ⟨fun hyx => ⟨init, last, ?_, hyx ▸ hfailed⟩, fun ⟨evs', last', hhist, hfailed'⟩ => ?_⟩
      · rw [List.append_assoc]; exact hm.hist
      · obtain ⟨-, rfl⟩ := List.append_singleton_inj.mp (hm.evs_eq hhist)
        exact hfailed.unique hfailed'
  · refine ⟨fun hr => absurd hr hm.hang_results_ne, fun ⟨evs', last', hhist, hfailed⟩ => ?_⟩
    obtain ⟨-, rfl⟩ := List.append_singleton_inj.mp (hm.evs_eq hhist)
    rw [hfailed.hasAnswer] at hpending
    cases hpending

/-- Settles O53: which error the last transaction failed with is read off its kind. -/
theorem busErrorsAreTheLastAnswer : Obligations.BusErrorsAreTheLastAnswer := by
  intro i s t e h
  refine ⟨(exec_busError_iff h id).trans ⟨?_, ?_⟩, (exec_busError_iff h id).trans ⟨?_, ?_⟩⟩
  · rintro ⟨evs, last, hhist, hfailed⟩
    obtain ⟨a, bytes, rfl⟩ := failed_busWriteFailed_iff.mp hfailed
    exact ⟨evs, a, bytes, hhist⟩
  · rintro ⟨evs, a, bytes, hhist⟩
    exact ⟨evs, _, hhist, rfl⟩
  · rintro ⟨evs, last, hhist, hfailed⟩
    obtain ⟨a, n, rfl⟩ := failed_busReadFailed_iff.mp hfailed
    exact ⟨evs, a, n, hhist⟩
  · rintro ⟨evs, a, n, hhist⟩
    exact ⟨evs, _, hhist, rfl⟩

/-! ## The transactions of each operation (R40, R134) -/

theorem Made.refl (s : State) : Made s s [] := ⟨[], (List.append_nil _).symm, rfl⟩

theorem traffic_openDriver_outOfRange {p : Nat} (h : ¬periodValid p = true) : traffic (.openDriver p) = [] :=
  if_neg fun hp => h (periodValid_iff.mpr hp)

/-- The only Errors of a command without reply are bus failures. -/
theorem issue_withoutReply_bus {cmd : Command} {s u : State} {x : Error} (hw : expectedWords cmd = 0)
    (h : issue cmd s = .err x u) : ¬x.NotBus := by
  intro hx
  obtain ⟨-, hw', -⟩ := issue_notBus h hx
  exact hw' hw

theorem sendFrame_err_bus {id : Word} {data : Option Word} {s u : State} {x : Error}
    (h : sendFrame id data s = .err x u) : ∃ e, x = .busWriteFailed e := by
  obtain ⟨-, h'⟩ | ⟨_, _, -, h'⟩ | ⟨e, _, -, h'⟩ := sendFrame_cases id data s <;> rw [h'] at h <;> cases h
  exact ⟨e, rfl⟩

/-- An Error of an operation that is no bus failure comes after all its transactions, or is SAMPLE's NotReady or strict
mismatch after those of its first command. -/
theorem work_notBus {i : Instr} {s u : State} {x : Error} (hg : guarded i s = false) (h : work i s = .err x u)
    (hx : x.NotBus) :
    Made s u (traffic i) ∨
      i = .sampleDriver ∧ Made s u (commandTraffic .getDataReady) ∧
        (x = .notReady ∨ s.crcPolicy = .strict ∧ ∃ k c, x = .checksumMismatch k c) := by
  cases i using Instr.byOperation with
  | command i cmd hcmd =>
    rw [work_of_commandOf hcmd] at h
    rw [traffic_of_commandOf hcmd]
    obtain ⟨-, -, -, hmade⟩ := issue_notBus (commandWork_eq_err h) hx
    exact .inl hmade
  | crc8 b0 b1 => cases h
  | addChk w => cases h
  | verChk b0 b1 c =>
    simp only [work] at h
    split at h <;> cases h
    exact .inl (Made.refl s)
  | send id data =>
    obtain hsend | ⟨_, _, -, hend⟩ := Ends.bind_eq_err.mp h
    · obtain ⟨e, rfl⟩ := sendFrame_err_bus hsend
      exact hx.elim
    · cases hend
  | read n =>
    obtain hread | ⟨_, _, -, hend⟩ := Ends.bind_eq_err.mp h
    · obtain ⟨-, -, hmade⟩ := readReply_notBus hread hx
      exact .inl hmade
    · cases hend
  | openDriver p =>
    simp only [work] at h
    split at h
    · obtain hinterval | ⟨_, _, -, hstart⟩ := Ends.bind_eq_err.mp h
      · exact absurd hx (issue_withoutReply_bus rfl hinterval)
      · exact absurd hx (issue_withoutReply_bus rfl (commandWork_eq_err hstart))
    · next hp =>
      cases h
      rw [traffic_openDriver_outOfRange hp]
      exact .inl (Made.refl s)
  | sampleDriver =>
    rw [work_sampleDriver hg] at h
    exact (sampleSequence_notBus h hx).imp id fun hfirst => ⟨rfl, hfirst⟩
  | stopDriver => exact absurd hx (issue_withoutReply_bus rfl (commandWork_eq_err h))

theorem BusEvent.Lawful.addr_eq {e : BusEvent} (h : e.Lawful) : e.addr = 0x61 := by
  cases e with
  | write a bytes r => exact h.1
  | read a n r => exact h.1

theorem BusEvent.not_succeeded_of_pending {e : BusEvent} (h : e.hasAnswer = false) : e.succeeded = false := by
  match e, h with
  | .write _ _ .pending, _ => rfl
  | .read _ _ .pending, _ => rfl

/-- Settles O54: an operation that returns `Ok` made all its transactions; one that met a failure or no answer ends with
it; and what other Errors come after is said by `work_notBus`. -/
theorem trafficOfEachOperation : Obligations.TrafficOfEachOperation := by
  intro i s t h
  obtain ⟨v, u, -, rfl, evs, ms, hm, htraffic, hok, -⟩ | ⟨x, u, hw, rfl, evs, ms, hm, -, hend⟩ |
    ⟨u, -, rfl, init, last, ms, hm, hprefix, hok, hpending, -⟩ := exec_next_cases h
  · obtain ⟨b, hb⟩ := flagged_eq_setCont i u
    rw [hb]
    exact ⟨evs, hm.hist, htraffic ▸ List.prefix_rfl, fun e he => (hm.lawful e he).addr_eq,
      fun e he => hok e (List.mem_of_mem_dropLast he), fun _ _ => ⟨htraffic, hok⟩, .inl htraffic⟩
  · have hreturned : ∀ v, (u.returns (.err x)).results ≠ s.results ++ [.ok v] :=
      fun v hv => by cases (hm.returned_iff (flag := u.cont)).mp hv
    refine ⟨evs, hm.hist, ?_, fun e he => (hm.lawful e he).addr_eq, ?_, fun v hv => absurd hv (hreturned v), ?_⟩
    · obtain ⟨hprefix, -⟩ | ⟨_, _, -, hprefix, -⟩ := hend <;> exact hprefix
    · obtain ⟨-, hok, -⟩ | ⟨init, last, rfl, -, hok, -⟩ := hend
      · exact fun e he => hok e (List.mem_of_mem_dropLast he)
      · rwa [List.dropLast_concat]
    · obtain ⟨-, -, hx⟩ | ⟨init, last, rfl, -, -, hfailed⟩ := hend
      · obtain hmade | ⟨rfl, hmade, hx⟩ := work_notBus (unguarded_of_exec_next h) hw hx
        · exact .inl (hm.traffic_of_made hmade)
        · refine .inr (.inr ⟨rfl, (hm.traffic_of_made hmade).trans traffic_getReady.symm, x, ?_, hx⟩)
          exact (hm.returned_iff (flag := u.cont)).mpr rfl
      · exact .inr (.inl ⟨last, List.getLast?_concat, hfailed.not_succeeded⟩)
  · refine ⟨init ++ [last], hm.hist, hprefix, fun e he => (hm.lawful e he).addr_eq, ?_,
      fun v hv => absurd hv hm.hang_results_ne, .inr (.inl ⟨last, List.getLast?_concat, ?_⟩)⟩
    · rwa [List.dropLast_concat]
    · exact BusEvent.not_succeeded_of_pending hpending

/-! ## The outcomes and refusals of each operation (R148) -/

/-- A command's Errors are those of its row. -/
theorem issue_err_mayReturn {cmd : Command} {s u : State} {x : Error} (h : issue cmd s = .err x u) :
    commandMayReturn (s.crcPolicy == .strict) cmd (.err x) = true := by
  obtain ⟨-, h'⟩ | ⟨_, _, -, h'⟩ | ⟨-, _, _, -, h'⟩ | ⟨hw, ⟨_, -, h'⟩ | ⟨_, _, _, -, h'⟩ | ⟨_, _, _, -, -, h'⟩ |
    ⟨_, _, _, _, _, -, hp, -, h'⟩⟩ := issue_cases cmd s <;> rw [h'] at h <;> cases h
  · rfl
  · simpa [commandMayReturn] using hw
  · simpa [commandMayReturn, hp] using hw

theorem commandWork_ok_mayReturn {cmd : Command} {s u : State} {v : Value} (strict : Bool)
    (h : commandWork cmd s = .ok v u) : commandMayReturn strict cmd (.ok v) = true := by
  obtain ⟨words, hi, rfl⟩ := commandWork_eq_ok h
  by_cases hw : expectedWords cmd = 0
  · simp [replyValue, hw, commandMayReturn]
  · simp [replyValue, hw, commandMayReturn, issue_length hi]

/-- SAMPLE may return the Errors of its commands, OPEN and STOP those of commands without reply. -/
theorem mayReturn_sampleDriver_of_command {strict : Bool} {cmd : Command} {x : Error}
    (h : commandMayReturn strict cmd (.err x) = true) : mayReturn strict .sampleDriver (.err x) = true := by
  cases x <;> simp_all [commandMayReturn, mayReturn]

theorem busWriteFailed_of_withoutReply {strict : Bool} {cmd : Command} {x : Error} (hw : expectedWords cmd = 0)
    (h : commandMayReturn strict cmd (.err x) = true) : ∃ e, x = .busWriteFailed e := by
  cases x <;> simp_all [commandMayReturn]

theorem measured_eq_ok {m : List Word} {s u : State} {v : Value} (h : measured m s = .ok v u) : ∃ x, v = .sample x := by
  unfold measured at h
  split at h
  · next x _ => cases h; exact ⟨x, rfl⟩
  · cases h

theorem measured_ne_err {m : List Word} {s u : State} {x : Error} : measured m s ≠ .err x u := by
  unfold measured
  split <;> nofun

theorem issue_ok_crcPolicy {cmd : Command} {s u : State} {words : List Word} (h : issue cmd s = .ok words u) :
    u.crcPolicy = s.crcPolicy := by
  obtain ⟨_, _, hm, -⟩ := h ▸ issue_runs cmd s
  exact hm.crcPolicy

theorem readReply_length {n : Nat} {s u : State} {words : List Word} (h : readReply n s = .ok words u) :
    words.length = n := by
  obtain ⟨-, h'⟩ | ⟨-, ⟨-, h'⟩ | ⟨_, _, -, h'⟩ | ⟨d, _, -, -, h'⟩ | ⟨_, _, _, _, -, -, -, h'⟩⟩ := readReply_cases n s <;>
    rw [h'] at h <;> cases h
  exact replyWords_length d n

theorem readReply_err_mayReturn {n : Nat} {s u : State} {x : Error} (h : readReply n s = .err x u) :
    mayReturn (s.crcPolicy == .strict) (.read n) (.err x) = true := by
  obtain ⟨-, h'⟩ | ⟨-, ⟨-, h'⟩ | ⟨_, _, -, h'⟩ | ⟨_, _, -, -, h'⟩ | ⟨_, _, _, _, -, hp, -, h'⟩⟩ := readReply_cases n s <;>
    rw [h'] at h <;> cases h
  · rfl
  · exact beq_iff_eq.mpr hp

/-- The value an operation returns is of its row's form. -/
theorem work_ok_mayReturn {i : Instr} {s u : State} {v : Value} (strict : Bool) (h : work i s = .ok v u) :
    mayReturn strict i (.ok v) = true := by
  cases i using Instr.byOperation with
  | command i cmd hcmd =>
    rw [work_of_commandOf hcmd] at h
    rw [mayReturn_of_commandOf hcmd]
    exact commandWork_ok_mayReturn strict h
  | crc8 b0 b1 => cases h; rfl
  | addChk w => cases h; rfl
  | verChk b0 b1 c =>
    simp only [work] at h
    split at h <;> cases h
    rfl
  | send id data =>
    obtain ⟨_, _, -, hend⟩ := Ends.bind_eq_ok.mp h
    cases hend
    rfl
  | read n =>
    obtain ⟨words, _, hread, hend⟩ := Ends.bind_eq_ok.mp h
    cases hend
    exact beq_iff_eq.mpr (readReply_length hread)
  | openDriver p =>
    obtain rfl := work_openDriver_ok_unit h
    rfl
  | sampleDriver =>
    obtain ⟨r, t, -, hafter⟩ := Ends.bind_eq_ok.mp h
    split at hafter
    · cases hafter
    split at hafter
    · obtain ⟨_, _, -, hmeasured⟩ := Ends.bind_eq_ok.mp hafter
      obtain ⟨x, rfl⟩ := measured_eq_ok hmeasured
      rfl
    · cases hafter
  | stopDriver =>
    obtain rfl := commandWork_ok_unit (cmd := .stopContinuous) rfl h
    rfl

/-- The Error an operation returns is in its row. -/
theorem work_err_mayReturn {i : Instr} {s u : State} {x : Error} (h : work i s = .err x u) :
    mayReturn (s.crcPolicy == .strict) i (.err x) = true := by
  cases i using Instr.byOperation with
  | command i cmd hcmd =>
    rw [work_of_commandOf hcmd] at h
    rw [mayReturn_of_commandOf hcmd]
    exact issue_err_mayReturn (commandWork_eq_err h)
  | crc8 b0 b1 => cases h
  | addChk w => cases h
  | verChk b0 b1 c =>
    simp only [work] at h
    split at h <;> cases h
    rfl
  | send id data =>
    obtain hsend | ⟨_, _, -, hend⟩ := Ends.bind_eq_err.mp h
    · obtain ⟨e, rfl⟩ := sendFrame_err_bus hsend
      rfl
    · cases hend
  | read n =>
    obtain hread | ⟨_, _, -, hend⟩ := Ends.bind_eq_err.mp h
    · exact readReply_err_mayReturn hread
    · cases hend
  | openDriver p =>
    simp only [work] at h
    split at h
    · obtain hinterval | ⟨_, _, -, hstart⟩ := Ends.bind_eq_err.mp h
      · obtain ⟨e, rfl⟩ := busWriteFailed_of_withoutReply rfl (issue_err_mayReturn hinterval)
        rfl
      · obtain ⟨e, rfl⟩ := busWriteFailed_of_withoutReply rfl (issue_err_mayReturn (commandWork_eq_err hstart))
        rfl
    · cases h
      rfl
  | sampleDriver =>
    obtain hready | ⟨r, t, hready, hafter⟩ := Ends.bind_eq_err.mp h
    · exact mayReturn_sampleDriver_of_command (issue_err_mayReturn hready)
    · split at hafter
      · cases hafter
      split at hafter
      · obtain hmeas | ⟨_, _, -, hmeasured⟩ := Ends.bind_eq_err.mp hafter
        · rw [← issue_ok_crcPolicy hready]
          exact mayReturn_sampleDriver_of_command (issue_err_mayReturn hmeas)
        · exact absurd hmeasured measured_ne_err
      · cases hafter
        rfl
  | stopDriver =>
    obtain ⟨e, rfl⟩ := busWriteFailed_of_withoutReply rfl (issue_err_mayReturn (commandWork_eq_err h))
    rfl

/-- Settles O50: the outcome returned is the end of the operation's work; a hang has a transaction that is pending, so
the operation is none of the checksum's. -/
theorem outcomesOfEachOperation : Obligations.OutcomesOfEachOperation := by
  intro i s t h
  obtain ⟨v, u, hw, rfl, evs, ms, hm, -⟩ | ⟨x, u, hw, rfl, evs, ms, hm, -⟩ |
    ⟨u, -, rfl, init, last, ms, hm, hprefix, -⟩ := exec_next_cases h
  · obtain ⟨b, hb⟩ := flagged_eq_setCont i u
    rw [hb]
    exact .inl ⟨.ok v, (hm.returned_iff (flag := b)).mpr rfl, work_ok_mayReturn _ hw⟩
  · exact .inl ⟨.err x, (hm.returned_iff (flag := u.cont)).mpr rfl, work_err_mayReturn hw⟩
  · refine .inr ⟨hm.results, rfl, fun hnone => ?_⟩
    rw [hnone] at hprefix
    simp at hprefix

theorem readReply_refuse {n : Nat} {s : State} {r : Refusal} (h : readReply n s = .refuse r) :
    r = .preconditionViolation ∧ (n < 1 ∨ 6 < n) := by
  obtain ⟨hn, h'⟩ | ⟨-, ⟨-, h'⟩ | ⟨_, _, -, h'⟩ | ⟨_, _, -, -, h'⟩ | ⟨_, _, _, _, -, -, -, h'⟩⟩ := readReply_cases n s <;>
    rw [h'] at h <;> cases h
  exact ⟨rfl, hn⟩

theorem sendFrame_ne_refuse (id : Word) (data : Option Word) (s : State) (r : Refusal) :
    sendFrame id data s ≠ .refuse r := by
  obtain ⟨-, h⟩ | ⟨_, _, -, h⟩ | ⟨_, _, -, h⟩ := sendFrame_cases id data s <;> rw [h] <;> nofun

theorem commandWork_ne_refuse (cmd : Command) (s : State) (r : Refusal) : commandWork cmd s ≠ .refuse r :=
  Ends.bind_ne_refuse (issue_ne_refuse cmd s r) fun _ _ => nofun

theorem measured_ne_refuse {m : List Word} {s : State} {r : Refusal} : measured m s ≠ .refuse r := by
  unfold measured
  split <;> nofun

/-- The only refusal of an operation's work is READ's, of a count outside 1 to 6. -/
theorem work_refuse {i : Instr} {s : State} {r : Refusal} (h : work i s = .refuse r) :
    r = .preconditionViolation ∧ ∃ n, i = .read n ∧ (n < 1 ∨ 6 < n) := by
  cases i using Instr.byOperation with
  | command i cmd hcmd =>
    rw [work_of_commandOf hcmd] at h
    exact absurd h (commandWork_ne_refuse cmd s r)
  | crc8 b0 b1 => cases h
  | addChk w => cases h
  | verChk b0 b1 c =>
    simp only [work] at h
    split at h <;> cases h
  | send id data =>
    obtain hsend | ⟨_, _, -, hend⟩ := Ends.bind_eq_refuse.mp h
    · exact absurd hsend (sendFrame_ne_refuse id data s r)
    · cases hend
  | read n =>
    obtain hread | ⟨_, _, -, hend⟩ := Ends.bind_eq_refuse.mp h
    · obtain ⟨rfl, hn⟩ := readReply_refuse hread
      exact ⟨rfl, n, rfl, hn⟩
    · cases hend
  | openDriver p =>
    simp only [work] at h
    split at h
    · exact absurd h (Ends.bind_ne_refuse (issue_ne_refuse _ s r) fun _ t => commandWork_ne_refuse _ t r)
    · cases h
  | sampleDriver =>
    obtain hready | ⟨_, _, -, hafter⟩ := Ends.bind_eq_refuse.mp h
    · exact absurd hready (issue_ne_refuse _ s r)
    · split at hafter
      · cases hafter
      split at hafter
      · obtain hmeas | ⟨_, _, -, hmeasured⟩ := Ends.bind_eq_refuse.mp hafter
        · exact absurd hmeas (issue_ne_refuse _ _ r)
        · exact absurd hmeasured measured_ne_refuse
      · cases hafter
  | stopDriver => exact absurd h (commandWork_ne_refuse _ s r)

/-- An idle block refuses by its guard or in its work. -/
theorem exec_refused_cases {i : Instr} {s : State} {r : Refusal} (hs : s.busy = false) (h : exec i s = .refused r) :
    guarded i s = true ∧ r = .wrongDriverState ∨ work i s = .refuse r := by
  rw [exec_eq_work i hs] at h
  cases hg : guarded i s with
  | true => rw [hg] at h; cases h; exact .inl ⟨rfl, rfl⟩
  | false =>
    rw [hg, if_neg Bool.false_ne_true] at h
    cases hw : work i s with
    | refuse r' => rw [hw] at h; cases h; exact .inr rfl
    | _ => rw [hw] at h; cases h

/-- What the guard refuses (R121). -/
theorem guarded_iff {i : Instr} {s : State} :
    guarded i s = true ↔ s.stateGuard = .refuse ∧
      ((s.cont = true ∧ ∃ p, i = .openDriver p) ∨ (s.cont = false ∧ (i = .sampleDriver ∨ i = .stopDriver))) := by
  cases hguard : s.stateGuard <;> cases i <;> simp [guarded, guardRefuses, hguard]

/-- Settles O51: an idle block refuses by its guard, which asks for the wrong CONT, or in the work of a READ. -/
theorem refusalsOfEachOperation : Obligations.RefusalsOfEachOperation := by
  intro i s r hs h
  obtain ⟨hg, rfl⟩ | hw := exec_refused_cases hs h
  · exact .inr ⟨rfl, guarded_iff.mp hg⟩
  · exact .inl (work_refuse hw)

end Sys2Proof.Machine

/-! # What operations do not read (spec/10_state.md R19 to R22; 43_driver.md R121) -/

namespace Sys2Proof.Machine

/-! ## The work reads neither the flag nor the records -/

section Respects

variable {f : State → State} (hf : (∃ b, f = fun s => s.setCont b) ∨ ∃ d h o, f = State.prepend d h o)

theorem Respects.ok {α : Type} (f : State → State) (v : α) : Respects f fun s => .ok v s := fun _ => rfl

theorem Respects.err {α : Type} (f : State → State) (x : Error) : Respects f fun s => (.err x s : Ends α) := fun _ => rfl

include hf

theorem commandWork_respects (cmd : Command) : Respects f (commandWork cmd) :=
  (issue_respects hf cmd).bind fun words => Respects.ok f (replyValue cmd words)

theorem work_respects (i : Instr) : Respects f (work i) := by
  cases i using Instr.byOperation with
  | command i cmd hcmd => rw [work_of_commandOf hcmd]; exact commandWork_respects hf cmd
  | crc8 b0 b1 => exact Respects.ok f _
  | addChk w => exact Respects.ok f _
  | verChk b0 b1 c =>
    by_cases hc : crc8 b0 b1 = c
    · simpa only [work, hc, if_true] using Respects.ok f _
    · simpa only [work, hc, if_false] using Respects.err f _
  | send id data => exact (sendFrame_respects hf id data).bind fun _ => Respects.ok f _
  | read n => exact (readReply_respects hf n).bind fun words => Respects.ok f (Value.words words)
  | openDriver p =>
    by_cases hp : periodValid p = true
    · simpa only [work, hp, if_true] using
        (issue_respects hf (.setContinuousInterval (lowWord p))).bind fun _ => commandWork_respects hf .startContinuous
    · simpa only [work, hp, Bool.false_eq_true, if_false] using Respects.err f _
  | sampleDriver =>
    refine (issue_respects hf .getDataReady).bind fun r => ?_
    cases r[0]? with
    | none => exact fun _ => rfl
    | some word =>
      by_cases hw : isReady word = true
      · simp only [hw, if_true]
        refine (issue_respects hf .readMeasurement).bind fun m s => ?_
        unfold measured
        split <;> rfl
      · simpa only [hw, Bool.false_eq_true, if_false] using Respects.err f _
  | stopDriver => exact commandWork_respects hf _

end Respects

/-! ## The records -/

/-- The outcome with its next state changed by `f`. -/
def onNext (f : State → State) : Host.Outcome State Fault Refusal → Host.Outcome State Fault Refusal
  | .next s => .next (f s)
  | .fault e => .fault e
  | .refused r => .refused r

theorem onNext_eq_next {f : State → State} {o : Host.Outcome State Fault Refusal} {t : State}
    (h : onNext f o = .next t) : ∃ t0, o = .next t0 ∧ f t0 = t := by
  cases o with
  | next t0 => exact ⟨t0, rfl, Host.Outcome.next.inj h⟩
  | fault e => cases h
  | refused r => cases h

section Prepend

variable (d : List DiagEntry) (h : List BusEvent) (o : List Returned)

theorem finish_onState_prepend (m : Ends Value) :
    finish (m.onState (State.prepend d h o)) = onNext (State.prepend d h o) (finish m) := by
  cases m with
  | ok v s => simp [Ends.onState, onNext, State.prepend, State.returns]
  | err x s => simp [Ends.onState, onNext, State.prepend, State.returns]
  | never s => rfl
  | refuse r => rfl
  | fault e => rfl

theorem guarded_prepend (i : Instr) (s : State) : guarded i (s.prepend d h o) = guarded i s := by cases i <;> rfl

theorem flagged_prepend (i : Instr) (s : State) : flagged i (s.prepend d h o) = (flagged i s).prepend d h o := by
  cases i <;> rfl

theorem exec_prepend (i : Instr) (s : State) :
    exec i (s.prepend d h o) = onNext (State.prepend d h o) (exec i s) := by
  obtain hs | hs := Bool.eq_false_or_eq_true s.busy
  · rw [exec_busy i hs, exec_busy i (s := s.prepend d h o) hs, onNext]
  · rw [exec_eq_work i hs, exec_eq_work i (s := s.prepend d h o) hs, guarded_prepend,
      work_respects (.inr ⟨d, h, o, rfl⟩) i s, ← finish_onState_prepend]
    cases guarded i s with
    | true => rfl
    | false =>
      cases work i s with
      | ok v u => simp only [Bool.false_eq_true, if_false, Ends.onState, Ends.bind_ok, flagged_prepend]
      | _ => rfl

end Prepend

/-- Settles O55: both states are one state with empty records, behind other ones; what the operation appends to the
empty records it appends to those. -/
theorem noOperationReadsTheRecords : Obligations.NoOperationReadsTheRecords := by
  intro i s t diag hist results hexec
  have hblank : ∀ d h o, State.prepend d h o { s with diag := [], hist := [], results := [] } =
      { s with diag := d, hist := h, results := o } := fun d h o => by simp [State.prepend]
  have hs := exec_prepend s.diag s.hist s.results i { s with diag := [], hist := [], results := [] }
  have hother := exec_prepend diag hist results i { s with diag := [], hist := [], results := [] }
  rw [hblank] at hs hother
  obtain ⟨t0, ht0, rfl⟩ := onNext_eq_next (hs.symm.trans hexec)
  exact ⟨t0.diag, t0.hist, t0.results, rfl, rfl, rfl, by rw [hother, ht0]; rfl⟩

/-! ## The state guard (R121) -/

theorem exec_guarded {i : Instr} {s : State} (hs : s.busy = false) (hg : guarded i s = true) :
    exec i s = .refused .wrongDriverState := by
  rw [exec_eq_work i hs, if_pos hg, finish_refuse]

theorem guarded_unchecked {s : State} (h : s.stateGuard = .unchecked) (i : Instr) : guarded i s = false := by
  refine Bool.eq_false_of_not_eq_true fun hg => ?_
  obtain ⟨hrefuse, -⟩ := guarded_iff.mp hg
  rw [h] at hrefuse
  cases hrefuse

theorem exec_unchecked_ne_wrongDriverState {s : State} (h : s.stateGuard = .unchecked) (i : Instr) :
    exec i s ≠ .refused .wrongDriverState := by
  intro hexec
  obtain hs | hs := Bool.eq_false_or_eq_true s.busy
  · rw [exec_busy i hs] at hexec
    cases hexec
  · obtain ⟨hg, -⟩ | hw := exec_refused_cases hs hexec
    · rw [guarded_unchecked h i] at hg
      cases hg
    · cases (work_refuse hw).1

/-- Whatever CONT was, the operation's own change of it is the same. -/
theorem flagged_setCont (i : Instr) (s : State) (b : Bool) :
    (flagged i (s.setCont b)).setCont b = (flagged i s).setCont b := by
  cases i <;> rfl

/-- Under `unchecked` an operation of a block with another CONT goes as before, up to CONT. -/
theorem exec_unchecked_setCont {i : Instr} {s t : State} (h : s.stateGuard = .unchecked) (hexec : exec i s = .next t)
    (b : Bool) : ∃ t', exec i (s.setCont b) = .next t' ∧ t.setCont b = t'.setCont b := by
  have hs := idle_of_exec_next hexec
  have hrun : exec i (s.setCont b) =
      finish (((work i s).onState fun s => s.setCont b).bind fun v t => .ok v (flagged i t)) := by
    rw [exec_eq_work i (s := s.setCont b) hs, guarded_unchecked (s := s.setCont b) h i, if_neg Bool.false_ne_true]
    exact congrArg (fun m => finish (m.bind fun v t => .ok v (flagged i t))) (work_respects (.inl ⟨b, rfl⟩) i s)
  obtain ⟨v, u, hw, rfl, -⟩ | ⟨x, u, hw, rfl, -⟩ | ⟨u, hw, rfl, -⟩ := exec_next_cases hexec <;> rw [hw] at hrun
  · exact ⟨_, hrun, congrArg (State.returns · (.ok v)) (flagged_setCont i u b).symm⟩
  · exact ⟨_, hrun, rfl⟩
  · exact ⟨_, hrun, rfl⟩

/-- Settles O46: under `refuse` the guard stops the operation; under `unchecked` it never does, and the work of an
operation does not look at CONT. -/
theorem stateGuardMeaning : Obligations.StateGuardMeaning := by
  refine ⟨fun s p hs hrefuse => ⟨fun hcont => ?_, fun hcont => ⟨?_, ?_⟩⟩, fun s i h => ⟨?_, fun b t hexec => ?_⟩⟩
  · exact exec_guarded hs (guarded_iff.mpr ⟨hrefuse, .inl ⟨hcont, p, rfl⟩⟩)
  · exact exec_guarded hs (guarded_iff.mpr ⟨hrefuse, .inr ⟨hcont, .inl rfl⟩⟩)
  · exact exec_guarded hs (guarded_iff.mpr ⟨hrefuse, .inr ⟨hcont, .inr rfl⟩⟩)
  · exact exec_unchecked_ne_wrongDriverState h i
  · exact exec_unchecked_setCont h hexec b

end Sys2Proof.Machine

/-! # The buffers belong to their operations (spec/10_state.md R13, R14, R21) -/

namespace Sys2Proof.Machine

/-- RX and W are in both states the same. -/
def SameRx (s t : State) : Prop := t.rx = s.rx ∧ t.rxLen = s.rxLen ∧ t.w = s.w ∧ t.wLen = s.wLen

theorem SameRx.refl (s : State) : SameRx s s := ⟨rfl, rfl, rfl, rfl⟩

theorem SameRx.trans {s t u : State} (h : SameRx s t) (h' : SameRx t u) : SameRx s u := by
  obtain ⟨hrx, hrxLen, hw, hwLen⟩ := h
  obtain ⟨hrx', hrxLen', hw', hwLen'⟩ := h'
  exact ⟨hrx'.trans hrx, hrxLen'.trans hrxLen, hw'.trans hw, hwLen'.trans hwLen⟩

/-- Begun in `s`, the operation, or the part of one, leaves RX and W alone. -/
def Ends.KeepsRx {α : Type} (s : State) : Ends α → Prop
  | .ok _ t | .err _ t | .never t => SameRx s t
  | .refuse _ | .fault _ => True

theorem Ends.KeepsRx.bind {α β : Type} {s : State} {m : Ends α} {k : α → State → Ends β} (hm : m.KeepsRx s)
    (hk : ∀ v t, (k v t).KeepsRx t) : (m.bind k).KeepsRx s := by
  cases m with
  | ok v t =>
    have h := hk v t
    rw [Ends.bind_ok]
    cases hkv : k v t with
    | ok v' u => rw [hkv] at h; exact SameRx.trans hm h
    | err x u => rw [hkv] at h; exact SameRx.trans hm h
    | never u => rw [hkv] at h; exact SameRx.trans hm h
    | refuse r => trivial
    | fault f => trivial
  | err x t => exact hm
  | never t => exact hm
  | refuse r => trivial
  | fault f => trivial

theorem sendFrame_keepsRx (id : Word) (data : Option Word) (s : State) : (sendFrame id data s).KeepsRx s := by
  obtain ⟨-, h⟩ | ⟨_, _, -, h⟩ | ⟨_, _, -, h⟩ := sendFrame_cases id data s <;> rw [h] <;> exact ⟨rfl, rfl, rfl, rfl⟩

theorem issue_keepsRx {cmd : Command} (hw : expectedWords cmd = 0) (s : State) : (issue cmd s).KeepsRx s := by
  rw [issue_eq]
  refine (sendFrame_keepsRx _ _ s).bind fun _ t => ?_
  rw [if_pos hw]
  exact SameRx.refl t

theorem commandWork_keepsRx {cmd : Command} (hw : expectedWords cmd = 0) (s : State) : (commandWork cmd s).KeepsRx s :=
  (issue_keepsRx hw s).bind fun _ t => SameRx.refl t

theorem work_openDriver_keepsRx (p : Nat) (s : State) : (work (.openDriver p) s).KeepsRx s := by
  simp only [work]
  split
  · exact (issue_keepsRx rfl s).bind fun _ t => commandWork_keepsRx rfl t
  · exact SameRx.refl s

/-- What an operation adds to its work is no buffer's. -/
theorem exec_keepsRx {i : Instr} {s t : State} (hwork : (work i s).KeepsRx s) (h : exec i s = .next t) :
    SameRx s t := by
  obtain ⟨v, u, hw, rfl, -⟩ | ⟨x, u, hw, rfl, -⟩ | ⟨u, hw, rfl, -⟩ := exec_next_cases h <;> rw [hw] at hwork
  · obtain ⟨b, hb⟩ := flagged_eq_setCont i u
    rw [hb]
    exact hwork
  · exact hwork
  · exact hwork

theorem exec_command_keepsRx {i : Instr} {cmd : Command} {s t : State} (hcmd : commandOf i = some cmd)
    (hw : expectedWords cmd = 0) (h : exec i s = .next t) : SameRx s t :=
  exec_keepsRx (work_of_commandOf hcmd ▸ commandWork_keepsRx hw s) h

theorem exec_read_keepsTx {n : Nat} {s t : State} (h : exec (.read n) s = .next t) :
    t.tx = s.tx ∧ t.txLen = s.txLen := by
  rw [exec_read (idle_of_exec_next h)] at h
  obtain ⟨-, h'⟩ | ⟨-, ⟨-, h'⟩ | ⟨_, _, -, h'⟩ | ⟨_, _, -, -, h'⟩ | ⟨_, _, _, _, -, -, -, h'⟩⟩ := readReply_cases n s <;>
    rw [h'] at h <;> cases h <;> exact ⟨rfl, rfl⟩

/-- The checksum operations change the host's record only. -/
theorem exec_checksum_returns {b0 b1 c : Byte} {w : Word} {i : Instr} {s t : State}
    (hi : i = .crc8 b0 b1 ∨ i = .addChk w ∨ i = .verChk b0 b1 c) (h : exec i s = .next t) : ∃ o, t = s.returns o := by
  have hs := idle_of_exec_next h
  obtain rfl | rfl | rfl := hi
  · exact ⟨_, (Host.Outcome.next.inj ((exec_crc8 hs b0 b1).symm.trans h)).symm⟩
  · exact ⟨_, (Host.Outcome.next.inj ((exec_addChk hs w).symm.trans h)).symm⟩
  · by_cases hc : crc8 b0 b1 = c
    · exact ⟨_, (Host.Outcome.next.inj ((exec_verChk_of_eq hs hc).symm.trans h)).symm⟩
    · exact ⟨_, (Host.Outcome.next.inj ((exec_verChk_of_ne hs hc).symm.trans h)).symm⟩

/-- Settles O57: only a READ writes RX and W, and the operations named make none; READ writes nothing else; the
checksum operations change the host's record only. -/
theorem scratchBelongsToItsOperation : Obligations.ScratchBelongsToItsOperation := by
  refine ⟨fun id data s t h => ?_, fun n s t h => exec_read_keepsTx h,
    fun cmd s t hw h => exec_command_keepsRx rfl hw h, fun p x b i s t hi h => ?_, fun b0 b1 c w i s t hi h => ?_⟩
  · exact exec_keepsRx (i := .send id data) ((sendFrame_keepsRx id data s).bind fun _ u => SameRx.refl u) h
  · obtain rfl | rfl | rfl | rfl | rfl | rfl | rfl | rfl | rfl | rfl := hi
    · exact exec_keepsRx (work_openDriver_keepsRx p s) h
    · exact exec_keepsRx (i := .stopDriver) (commandWork_keepsRx (cmd := .stopContinuous) rfl s) h
    all_goals exact exec_command_keepsRx rfl rfl h
  · obtain ⟨o, rfl⟩ := exec_checksum_returns hi h
    exact ⟨rfl, rfl, rfl, rfl, rfl, rfl, rfl⟩

end Sys2Proof.Machine

/-! # The invariant (spec/20_memory.md R30 to R36, R44; 10_state.md R13 to R21) -/

namespace Sys2Proof.Machine

/-! ## The invariant of an idle and of a hung block -/

section Inv

variable {s : State}

/-- An idle block: every event has its answer, and no buffer holds a value. -/
theorem State.Inv.of_idle (hbusy : s.busy = false) (hanswered : ∀ e ∈ s.hist, e.hasAnswer = true)
    (hlawful : ∀ e ∈ s.hist, e.Lawful) (hmismatches : ∀ d ∈ s.diag, d.computed ≠ d.received) (hclean : s.Clean) :
    s.Inv := by
  obtain ⟨htx, hrx, hw⟩ := hclean.bounded
  refine ⟨fun e he => hanswered e (List.mem_of_mem_dropLast he), ⟨fun h => ?_, fun ⟨e, hlast, hpending⟩ => ?_⟩, hlawful,
    hmismatches, htx, hrx, hw, fun _ => hclean⟩
  · rw [hbusy] at h
    cases h
  · rw [hanswered e (List.mem_of_getLast? hlast)] at hpending
    cases hpending

/-- A hung block: its last event is the one pending, and its buffers are in their bounds. -/
theorem State.Inv.of_hung {init : List BusEvent} {last : BusEvent} (hbusy : s.busy = true)
    (hhist : s.hist = init ++ [last]) (hanswered : ∀ e ∈ init, e.hasAnswer = true) (hpending : last.hasAnswer = false)
    (hlawful : ∀ e ∈ s.hist, e.Lawful) (hmismatches : ∀ d ∈ s.diag, d.computed ≠ d.received) (hbounded : s.Bounded) :
    s.Inv := by
  obtain ⟨htx, hrx, hw⟩ := hbounded
  refine ⟨?_, ⟨fun _ => ⟨last, ?_, hpending⟩, fun _ => hbusy⟩, hlawful, hmismatches, htx, hrx, hw, fun h => ?_⟩
  · rwa [hhist, List.dropLast_concat]
  · rw [hhist, List.getLast?_concat]
  · rw [hbusy] at h
    cases h

/-- In an idle block every event has its answer: the earlier ones, and the last one since the block is not busy. -/
theorem State.Inv.answered (hinv : s.Inv) (hbusy : s.busy = false) : ∀ e ∈ s.hist, e.hasAnswer = true := by
  intro e he
  by_contra hpending
  obtain hnil | ⟨init, last, hhist⟩ := s.hist.eq_nil_or_concat'
  · simp [hnil] at he
  · have hearlier := hinv.earlierAnswered
    rw [hhist, List.dropLast_concat] at hearlier
    rw [hhist] at he
    obtain he | he := List.mem_append.mp he
    · exact hpending (hearlier e he)
    · obtain rfl := List.mem_singleton.mp he
      have hlast : ∃ e, s.hist.getLast? = some e ∧ e.hasAnswer = false :=
        ⟨e, by rw [hhist, List.getLast?_concat], Bool.eq_false_of_not_eq_true hpending⟩
      rw [hinv.lastPending.mpr hlast] at hbusy
      cases hbusy

/-- What the host has still to issue does not enter the invariant. -/
theorem State.Inv.inbox (hinv : s.Inv) (rest : List HostEvent) : State.Inv { s with inbox := rest } :=
  { hinv with scratchEmpty := fun h => congrArg (fun s : State => { s with inbox := rest }) (hinv.scratchEmpty h) }

end Inv

/-! ## Operations and steps keep it -/

theorem BusEvent.hasAnswer_of_succeeded {e : BusEvent} (h : e.succeeded = true) : e.hasAnswer = true := by
  by_contra hpending
  rw [BusEvent.not_succeeded_of_pending (Bool.eq_false_of_not_eq_true hpending)] at h
  cases h

section Moved

variable {s u : State} {evs : List BusEvent} {ms : List DiagEntry} (hm : Moved s u evs ms) (hinv : s.Inv)
include hm hinv

theorem Moved.lawful_hist : ∀ e ∈ u.hist, e.Lawful := by
  rw [hm.hist]
  exact List.forall_mem_append.mpr ⟨hinv.lawful, hm.lawful⟩

theorem Moved.mismatches_diag : ∀ d ∈ u.diag, d.computed ≠ d.received := by
  rw [hm.diag]
  exact List.forall_mem_append.mpr ⟨hinv.mismatches, hm.mismatches⟩

/-- From an idle state to an idle one. -/
theorem Moved.inv_of_idle (hbusy : s.busy = false) (hanswered : ∀ e ∈ evs, e.hasAnswer = true)
    (hclean : s.Clean → u.Clean) : u.Inv := by
  refine State.Inv.of_idle (hm.busy.trans hbusy) ?_ (hm.lawful_hist hinv) (hm.mismatches_diag hinv)
    (hclean (hinv.scratchEmpty hbusy))
  rw [hm.hist]
  exact List.forall_mem_append.mpr ⟨hinv.answered hbusy, hanswered⟩

end Moved

/-- What the host has been told and what CONT is do not enter the invariant. -/
theorem State.Inv.told {s : State} (hinv : s.Inv) (b : Bool) (o : Returned) : ((s.setCont b).returns o).Inv :=
  { hinv with scratchEmpty := fun h => congrArg (fun s : State => (s.setCont b).returns o) (hinv.scratchEmpty h) }

theorem exec_keeps_inv {i : Instr} {s t : State} (hinv : s.Inv) (h : exec i s = .next t) : t.Inv := by
  have hs := idle_of_exec_next h
  obtain ⟨v, u, -, rfl, evs, ms, hm, -, hok, hclean⟩ | ⟨x, u, -, rfl, evs, ms, hm, hclean, hend⟩ |
    ⟨u, -, rfl, init, last, ms, hm, -, hok, hpending, hbounded⟩ := exec_next_cases h
  · obtain ⟨b, hb⟩ := flagged_eq_setCont i u
    rw [hb]
    exact (hm.inv_of_idle hinv hs (fun e he => BusEvent.hasAnswer_of_succeeded (hok e he)) hclean).told b _
  · refine (hm.inv_of_idle hinv hs (fun e he => ?_) hclean).told u.cont _
    obtain ⟨-, hok, -⟩ | ⟨init, last, rfl, -, hok, hfailed⟩ := hend
    · exact BusEvent.hasAnswer_of_succeeded (hok e he)
    · obtain he | he := List.mem_append.mp he
      · exact BusEvent.hasAnswer_of_succeeded (hok e he)
      · rw [List.mem_singleton.mp he]
        exact hfailed.hasAnswer
  · refine State.Inv.of_hung (init := s.hist ++ init) (last := last) rfl ?_ ?_ hpending (hm.lawful_hist hinv)
      (hm.mismatches_diag hinv) (hbounded (hinv.scratchEmpty hs))
    · rw [List.append_assoc]
      exact hm.hist
    · exact List.forall_mem_append.mpr
        ⟨hinv.answered hs, fun e he => BusEvent.hasAnswer_of_succeeded (hok e he)⟩

/-- A reset leaves an idle block with empty records and buffers. -/
theorem hostReset_inv {s t : State} (h : hostReset s = .next t) : t.Inv := by
  have hs : s.busy = false := by
    refine Bool.eq_false_of_not_eq_true fun hs => ?_
    rw [hostReset_busy hs] at h
    cases h
  rw [hostReset_idle hs] at h
  cases h
  exact State.Inv.of_idle rfl nofun nofun nofun rfl

/-- Settles O58: the block right after reset is idle with empty records and buffers. -/
theorem resetMeetsTheInvariant : Obligations.ResetMeetsTheInvariant :=
  State.Inv.of_idle rfl nofun nofun nofun rfl

/-- Settles O59: a step does nothing, resets, or carries out an operation, which begins in an idle block: what it adds
to the records is lawful, its last event is pending exactly when it hangs, and it empties the buffers when it ends. -/
theorem stepKeepsTheInvariant : Obligations.StepKeepsTheInvariant := by
  intro s t hinv h
  obtain rfl | ⟨-, _, -, hreset⟩ | ⟨-, _, rest, _, -, -, hexec⟩ := step_next_cases h
  · exact hinv
  · exact hostReset_inv hreset
  · exact exec_keeps_inv (hinv.inbox rest) hexec

end Sys2Proof.Machine
